-- ==== Sys2Proof/Word.lean ====
section
/-! DEFINITION. The words of the block: bytes, the two reading widths, and the level of a line (R10). -/

namespace Sys2Proof

/-- An 8-bit register, operand or transferred byte (R10, R94). -/
abbrev Byte := BitVec 8

/-- The 16-bit proximity reading (R29). -/
abbrev Half := BitVec 16

/-- The 32-bit field of the frequency reading (R30). -/
abbrev Word := BitVec 32

/-- The level of a line: `true` is logic high, written 1 in the spec, `false` is logic low (R10). -/
abbrev Level := Bool

end Sys2Proof
end

