-- ==== Sys2Proof/Config.lean ====
section
/-! DEFINITION. What the spec fixes (R7), what it leaves to the build (R8), and the free answers of the
data-out line (R13). -/

namespace Sys2Proof

/-- `BACKEND` (R3, R8): the real driver or the no-op stand-in. -/
inductive Backend where
  | real
  | stub
deriving DecidableEq, Repr, Inhabited

/-- The parameters of R8. A machine carries one such record for life and no operation writes it (R40).
DESIGN CHOICE (log 1): the record stands in `State`, so a statement over all states is one over all builds. -/
structure Params where
  /-- `BACKEND`. -/
  backend : Backend
  /-- `VALID_IDS`, the ids that select a line set (R201). -/
  validIds : List Byte
  /-- `DI_INIT`, the level `bind` drives `DI` to. -/
  diInit : Level
  /-- `CS_INIT`. -/
  csInit : Level
  /-- `CLK_INIT`. -/
  clkInit : Level
  /-- `T_PAD` in a unit the spec does not give; no rule's result depends on it (R149, R246). -/
  tPad : Nat
  /-- `INIT_SEQ`, the eleven (address, value) pairs of the initialisation writes (R41, R172). -/
  initSeq : Vector (Byte × Byte) 11
  /-- `A_PROX_MSB` (R42). -/
  aProxMsb : Byte
  /-- `A_PROX_LSB`. -/
  aProxLsb : Byte
  /-- `A_FREQ_MSB`. -/
  aFreqMsb : Byte
  /-- `A_FREQ_MID`. -/
  aFreqMid : Byte
  /-- `A_FREQ_LSB`. -/
  aFreqLsb : Byte
  /-- `BURST_SETTLE_US`: 0 for no settle wait in a burst (R161, D6). -/
  burstSettleUs : Nat
  /-- `BURST_PAD`: whether a pad follows the opcode transfer of a burst (R161, D6). -/
  burstPad : Bool
deriving DecidableEq, Repr, Inhabited

namespace Config

/-! ### The constants of R7 -/

/-- `T_SETTLE`, in microseconds. -/
def tSettle : Nat := 2
/-- `READ_FLAG`. -/
def readFlag : Byte := 0x80#8
/-- `ADDR_MASK`. -/
def addrMask : Byte := 0x7F#8
/-- `READ_FILL`. -/
def readFill : Byte := 0x00#8
/-- `BURST_OPCODE`. -/
def burstOpcode : Byte := 0x80#8
/-- `SENTINEL`. -/
def sentinel : Byte := 0x80#8
/-- `XFER_BITS`. -/
def xferBits : Nat := 8
/-- `BURST_LEN`. -/
def burstLen : Nat := 12
/-- `INIT_LEN`. -/
def initLen : Nat := 11

/-! ### The OPEN parameters of R8, as the build of the machine that `State.reset` starts. No value is chosen. -/

opaque backend : Backend
opaque validIds : List Byte
/-- `T_PAD` is greater than zero: this is how much it exceeds one unit. -/
opaque tPadExcess : Nat
opaque initSeq : Vector (Byte × Byte) 11
opaque aProxMsb : Byte
opaque aProxLsb : Byte
opaque aFreqMsb : Byte
opaque aFreqMid : Byte
opaque aFreqLsb : Byte

/-- The build the reset machine has: OPEN where the spec leaves the value open, the decided default
where D2 and D6 decide one. -/
def build : Params where
  backend := backend
  validIds := validIds
  diInit := false
  csInit := true
  clkInit := false
  tPad := tPadExcess + 1
  initSeq := initSeq
  aProxMsb := aProxMsb
  aProxLsb := aProxLsb
  aFreqMsb := aFreqMsb
  aFreqMid := aFreqMid
  aFreqLsb := aFreqLsb
  burstSettleUs := 0
  burstPad := false

/-- The oracle of R13: the level the environment puts on `DO` at the n-th sample that `State.samples` does
not answer. Nothing constrains it (log 2). -/
opaque freeSample : Nat → Level

end Config

end Sys2Proof
end

