-- ==== Sys2Proof/Syntax.lean ====
section
/-! DEFINITION. The nine operations of R9, one constructor per row of spec/opcode_table.json (R107). -/

namespace Sys2Proof

/-- The operations, with their immediate operands (R35, R94, R105). -/
inductive Instr where
  /-- TRANSFER(b), R121. -/
  | transfer (b : Byte)
  /-- READ_REGISTER(a), R141. -/
  | readRegister (a : Byte)
  /-- WRITE_REGISTER(a, v), R142. -/
  | writeRegister (a v : Byte)
  /-- READ_BUFFER(), R161. -/
  | readBuffer
  /-- NEW(id), R171. -/
  | new (id : Byte)
  /-- UPDATE(), R177. -/
  | update
  /-- GET_DATA(), R180. -/
  | getData
  /-- GET_FREQUENCY(), R181. -/
  | getFrequency
  /-- DESTROY(), R183. -/
  | destroy
deriving DecidableEq, Repr

/-- The four formats of R90. -/
inductive Format where
  /-- One byte on the wire. -/
  | B
  /-- A register frame of two bytes. -/
  | R
  /-- A burst frame of thirteen bytes. -/
  | S
  /-- A host command: a 3-bit code and an 8-bit operand on the command port. -/
  | H
deriving DecidableEq, Repr

/-- The format of each operation (the table of R90). -/
def Instr.format : Instr → Format
  | .transfer _ => .B
  | .readRegister _ => .R
  | .writeRegister _ _ => .R
  | .readBuffer => .S
  | .new _ => .H
  | .update => .H
  | .getData => .H
  | .getFrequency => .H
  | .destroy => .H

/-- The five host commands; the other four operations are not on the host port (R188). -/
def Instr.isCommand (i : Instr) : Bool := i.format == .H

end Sys2Proof
end

