-- ==== Sys2Proof/WellFormed.lean ====
section
/-! DEFINITION. Which terms are in canonical form. Bit 7 of a register address has no effect and no place in the
encoding (R60, R95, R96): an operation is well formed when its address is one of 0x00 to 0x7F. The machine gives a
meaning to the other operands too, the one of the canonical address. -/

namespace Sys2Proof

/-- The address `a` with bit 7 cleared: the register it names (R60). -/
def canonAddr (a : Byte) : Byte := a &&& 0x7F#8

/-- The same operation with its register address in the effective range 0x00 to 0x7F (R60). -/
def Instr.canon : Instr → Instr
  | .transfer b => .transfer b
  | .readRegister a => .readRegister (canonAddr a)
  | .writeRegister a v => .writeRegister (canonAddr a) v
  | .readBuffer => .readBuffer
  | .new id => .new id
  | .update => .update
  | .getData => .getData
  | .getFrequency => .getFrequency
  | .destroy => .destroy

/-- An operation whose encoding holds every bit of its operands. -/
def Instr.wf : Instr → Bool
  | .transfer _ => true
  | .readRegister a => !a.msb
  | .writeRegister a _ => !a.msb
  | .readBuffer => true
  | .new _ => true
  | .update => true
  | .getData => true
  | .getFrequency => true
  | .destroy => true

/-- A build the spec allows (R8): the pad has a duration and the valid ids are a set. -/
def Params.wf (p : Params) : Bool := decide (0 < p.tPad) && decide p.validIds.Nodup

end Sys2Proof
end

