-- ==== Sys2Proof/Decode.lean ====
section
/-! DEFINITION. The decoder of the four formats (R90 to R107), total on any bytes, and after it the encoder.
Bytes stand in the order they cross the wire or the port, first byte first (R64, R92, R93). -/

namespace Sys2Proof

/-- Why a word is no operation. -/
inductive DecodeError where
  /-- A host code 0b101, 0b110 or 0b111: reserved (R103(b)). -/
  | reservedCommand
  /-- A command byte with a bit above the 3-bit code set: no code of the port (R101). -/
  | notThreeBits
  /-- A read frame whose data byte is not 0x00 (R104). -/
  | readFillNotZero
  /-- A burst word other than 0x80 and twelve bytes 0x00 (R93, R104). -/
  | notABurst
  /-- The number of bytes is not the format's (R102). -/
  | wrongLength
deriving DecidableEq, Repr

/-- Format B: every byte is a TRANSFER (R91). -/
def decodeB : List Byte → Except DecodeError Instr
  | [b] => .ok (.transfer b)
  | _ => .error .wrongLength

/-- Format R: bit 15 of `W = {A, D}` tells a read from a write (R92). -/
def decodeR : List Byte → Except DecodeError Instr
  | [a, d] =>
    if a.msb then
      if d = Config.readFill then .ok (.readRegister (canonAddr a)) else .error .readFillNotZero
    else .ok (.writeRegister (canonAddr a) d)
  | _ => .error .wrongLength

/-- The bytes of a burst frame (R93). -/
def burstBytes : List Byte := Config.burstOpcode :: List.replicate Config.burstLen Config.readFill

/-- Format S: one bit string only (R93). -/
def decodeS (bytes : List Byte) : Except DecodeError Instr :=
  if bytes = burstBytes then .ok .readBuffer
  else if bytes.length = Config.burstLen + 1 then .error .notABurst
  else .error .wrongLength

/-- Format H: the code in bits 2:0 of the first byte, the operand lines in the second (R101, log 12). The operand
lines carry nothing for a command without operand. -/
def decodeH : List Byte → Except DecodeError Instr
  | [c, id] =>
    if c = 0#8 then .ok (.new id)
    else if c = 1#8 then .ok .update
    else if c = 2#8 then .ok .getData
    else if c = 3#8 then .ok .getFrequency
    else if c = 4#8 then .ok .destroy
    else if c.toNat < 8 then .error .reservedCommand
    else .error .notThreeBits
  | _ => .error .wrongLength

/-- The decoder. Nothing inside a bit string tells its format (R102): the port or framing it comes by does. -/
def decode : Format → List Byte → Except DecodeError Instr
  | .B, bytes => decodeB bytes
  | .R, bytes => decodeR bytes
  | .S, bytes => decodeS bytes
  | .H, bytes => decodeH bytes

/-- The bytes of an operation, from the encoding tables of R91 to R101. -/
def encode : Instr → List Byte
  | .transfer b => [b]
  | .readRegister a => [a ||| Config.readFlag, Config.readFill]
  | .writeRegister a v => [a &&& Config.addrMask, v]
  | .readBuffer => burstBytes
  | .new id => [0#8, id]
  | .update => [1#8, 0#8]
  | .getData => [2#8, 0#8]
  | .getFrequency => [3#8, 0#8]
  | .destroy => [4#8, 0#8]

/-- How many bytes a word of each format has (R90, R102; two on the command port, log 12). -/
def Format.bytes : Format → Nat
  | .B => 1
  | .R => 2
  | .S => 13
  | .H => 2

/-! ### The words of spec/opcode_table.json -/

/-- The `n` bytes of the number `w`, most significant first: the table numbers a frame as one word whose highest bits
cross the wire first (R92, R93). -/
def bytesBE : Nat → Nat → List Byte
  | 0, _ => []
  | n + 1, w => BitVec.ofNat 8 (w >>> (8 * n)) :: bytesBE n w

/-- A word of the table as the format and the bytes it is laid out in (log 12). A word of up to eight bits below 8 is a
3-bit host code with its operand lines low; another word of up to eight bits is a byte for TRANSFER. -/
def tableLayout (nbits w : Nat) : Format × List Byte :=
  if nbits ≤ 8 then
    if w < 8 then (.H, [BitVec.ofNat 8 w, 0#8]) else (.B, [BitVec.ofNat 8 w])
  else if nbits ≤ 16 then (.R, bytesBE 2 w)
  else (.S, bytesBE 13 w)

/-- The operation the decoder reads from a word of the table. -/
def decodeTableWord (nbits w : Nat) : Option Instr :=
  (decode (tableLayout nbits w).1 (tableLayout nbits w).2).toOption

end Sys2Proof
end

