-- ==== Sys2Proof/Machine/State.lean ====
section
/-! DEFINITION. The state of one Device Instance (R20), the requests and answers of the outside world, the record of
what can be observed, and the state after reset (R45, R230). -/

namespace Sys2Proof.Machine

/-- Reasons a run ends in a fault outcome. -/
inductive Fault where
  /-- `FAULT` is set: a state with `FAULT != None` is a fault outcome, never the final state of a successful run (R208).
  No step answers it, for taking the error is a next state (log 6); `Safety.verdict` reads it off a state. Safe. -/
  | fatalRecorded
deriving DecidableEq, Repr

/-- Reasons a step gives no meaning. -/
inductive Refusal where
  /-- Raised by an arm of `exec` for an instruction without a meaning; no arm is one. Safe. -/
  | notModelled (mnemonic : String)
  /-- Raised by a step whose request holds bytes that are no word of their format, for the reason given: nothing in the
  block or on its port can hold such a word (log 18). Safe. -/
  | malformedWord (why : DecodeError)
deriving DecidableEq, Repr

/-- `DEV` (R31): "the device has exactly two states". -/
inductive DevState where
  | uninitialized
  | ready
deriving DecidableEq, Repr

/-- The fatal errors `FAULT` can hold (R32, R200); `None` is `none`, the value 3 does not exist (U17). -/
inductive FatalError where
  | configError
  | presenceError
deriving DecidableEq, Repr

/-- Which cached reading a getter returns (R180, R181). -/
inductive Reading where
  | data
  | frequency
deriving DecidableEq, Repr

/-! ### The sequencer position (R36). A frame of an inner layer is an argument of the position that called it, so the
stack has at most the three frames of R36 and no ill-matched one. Positions are one line event or one register update
apart (R9); where R36 has one position for several updates, the model has one for each (log 17). -/

/-- Where a bit slot is: the five numbered steps of R121, the second in its two updates, the fourth in its sample and
what is done with it. -/
inductive SubStep where
  /-- Step 1, the level on `DI`. -/
  | drive
  /-- Step 2, `TX`. -/
  | shiftTx
  /-- Step 2, `RX`. -/
  | shiftRx
  /-- Step 3. -/
  | edge1
  /-- Step 4, the sample. -/
  | sample
  /-- Step 4, `RX[0]`, for the level sampled. -/
  | store (b : Level)
  /-- Step 5. -/
  | edge2
deriving DecidableEq, Repr

/-- The transfer frame: the two loads, then `Xfer(k, s)`. -/
inductive XferPos where
  | loadTx
  | clearRx
  | slot (k : Fin 8) (sub : SubStep)
deriving DecidableEq, Repr

/-- The register-access frame `Reg(phase)`; the two transfer phases hold the transfer frame they called. -/
inductive RegPos where
  | assert
  | settle
  | addrPhase (x : XferPos)
  | pad
  | dataPhase (x : XferPos)
  | deassert
deriving DecidableEq, Repr

/-- The burst frame `Buf(phase)`. `settle` and `pad` are passed only by a build with `BURST_SETTLE_US` or `BURST_PAD`
set (R161); `store j` writes `BUF[j]`. -/
inductive BufPos where
  | assert
  | settle
  | opcode (x : XferPos)
  | pad
  | data (j : Fin 12) (x : XferPos)
  | store (j : Fin 12)
  | deassert
deriving DecidableEq, Repr

/-- The statements of DESTROY (R183). -/
inductive DestroyStage where
  | release
  | dev
  | prox
  | freq
deriving DecidableEq, Repr

/-- `SEQ`: `Idle`, or the controller frame of the running command with the frames below it (R36). `updateStore r` writes
`T[r]`. -/
inductive Seq where
  | idle
  | newCheckId (id : Byte)
  | newBind
  | newWrite (n : Fin 11) (pos : RegPos)
  | newBurst (pos : BufPos)
  | newSelfCheck
  | updateRead (r : Fin 5) (pos : RegPos)
  | updateStore (r : Fin 5)
  | updateCommit
  | get (which : Reading)
  | destroy (stage : DestroyStage)
deriving DecidableEq, Repr

/-! ### What the outside world does, and what it can observe -/

/-- A request of the outside world. -/
inductive Request where
  /-- A command on the host port: the 3-bit code and the operand lines (R101, R188). It runs step by step (R9). -/
  | command (code : BitVec 3) (id : Byte)
  /-- The bytes of an operation, in a format of R90, to be run as a whole: how a test bench asks for an operation of any
  layer (R188: "functions of their own"; log 7, log 9). -/
  | op (fmt : Format) (bytes : List Byte)
  /-- The reset event (R230); when it acts is the model's choice (log 21). -/
  | reset
deriving DecidableEq, Repr

/-- A line event: one performance of a primitive of R12. -/
inductive LineEvent where
  /-- `BIND(id)`. -/
  | bind (id : Byte)
  /-- `RELEASE`. -/
  | release
  /-- `DI=b`. -/
  | di (b : Level)
  /-- `CS=b`. -/
  | cs (b : Level)
  /-- `CK=b`, `b` the new level. -/
  | ck (b : Level)
  /-- `DO?b`, `b` the level sampled. -/
  | sample (b : Level)
  /-- `WAIT(n)`, `n` in microseconds. -/
  | wait (n : Nat)
  /-- `PAD`. -/
  | pad
deriving DecidableEq, Repr

/-- A value an operation returns (R105). -/
inductive Result where
  /-- The byte of TRANSFER, READ_REGISTER or WRITE_REGISTER. -/
  | byte (r : Byte)
  /-- The 16-bit result of GET_DATA. -/
  | data (v : Half)
  /-- The 32-bit result of GET_FREQUENCY. -/
  | frequency (v : Word)
deriving DecidableEq, Repr

/-- The whole state. The first fifteen fields are R20's table; `params` is the build (R40, log 1); the rest is the
model's own: inputs not yet taken and the record of what can be observed (log 2, log 8, log 11, log 14). -/
@[ext]
structure State where
  /-- `DI` (R21). -/
  di : Level
  /-- `CS`, low is asserted (R22). -/
  cs : Level
  /-- `CLK` (R23). -/
  clk : Level
  /-- `TX` (R25). -/
  tx : Byte
  /-- `RX` (R26). -/
  rx : Byte
  /-- `T[0..4]` (R27). -/
  tmp : Vector Byte 5
  /-- `BUF[0..11]` (R28). -/
  buf : Vector Byte 12
  /-- `PROX` (R29). -/
  prox : Half
  /-- `FREQ` (R30). -/
  freq : Word
  /-- `DEV` (R31). -/
  dev : DevState
  /-- `FAULT` (R32). -/
  fault : Option FatalError
  /-- `FAULT_INFO` (R32). -/
  faultInfo : Byte
  /-- `ID` (R33). -/
  id : Byte
  /-- `BOUND`: the block owns, and drives, its lines (R34). -/
  bound : Bool
  /-- `SEQ` (R36). -/
  seq : Seq
  /-- The parameters of R8. -/
  params : Params
  /-- Requests not yet taken, oldest first. -/
  pending : List Request
  /-- The environment's next answers on `DO`, the next one first (R13). -/
  samples : List Level
  /-- How many answers were taken from `Config.freeSample` so far. -/
  drawn : Nat
  /-- Ids held by other live instances (R213). -/
  liveIds : List Byte
  /-- The line events performed, the newest first (R12). -/
  log : List LineEvent
  /-- The values returned, the newest first (R188). -/
  returned : List Result
deriving DecidableEq, Repr

/-- The trace (R12): the line events performed, in order. -/
def State.trace (s : State) : List LineEvent := s.log.reverse

/-- Reset of a machine of the build `p`: the values of R45. DESIGN CHOICE: zero for the registers R45 leaves
unspecified (log 3), the initial levels for the three lines, which nothing drives until `bind` (log 4), no request, no
prepared answer, no other live instance. -/
def State.resetWith (p : Params) : State where
  di := p.diInit
  cs := p.csInit
  clk := p.clkInit
  tx := 0#8
  rx := 0#8
  tmp := Vector.replicate 5 0#8
  buf := Vector.replicate 12 0#8
  prox := 0#16
  freq := 0#32
  dev := .uninitialized
  fault := none
  faultInfo := 0#8
  id := 0#8
  bound := false
  seq := .idle
  params := p
  pending := []
  samples := []
  drawn := 0
  liveIds := []
  log := []
  returned := []

/-- The machine right after reset (R45, R230, R231). -/
def State.reset : State := State.resetWith Config.build

end Sys2Proof.Machine
end

