-- ==== Sys2Proof/Machine/Flags.lean ====
section
/-! DEFINITION. The status bits. The block has no arithmetic flags; `DEV`, `FAULT` and `BOUND` are its only status
bits, read only to accept or refuse a command (R39, R170). -/

namespace Sys2Proof.Machine

/-- `DEV` as the status output carries it (R31). -/
def DevState.code : DevState → BitVec 1
  | .uninitialized => 0#1
  | .ready => 1#1

/-- `FAULT` as the status output carries it (R32). -/
def faultCode : Option FatalError → BitVec 2
  | none => 0#2
  | some .configError => 1#2
  | some .presenceError => 2#2

/-- The block is idle, constructed and without an error: UPDATE, the getters and DESTROY are accepted (R170). -/
def State.acceptsOnReady (s : State) : Bool :=
  s.seq == .idle && s.fault == none && s.dev == .ready

/-- Another live instance holds the lines of `id` (R213, D20). The stand-in holds none ("no lines bound", R186). -/
def State.heldElsewhere (s : State) (id : Byte) : Bool :=
  s.liveIds.contains id && s.params.backend == .real

/-- NEW(id) is accepted (R170), and is not the second NEW of R213. -/
def State.acceptsNew (id : Byte) (s : State) : Bool :=
  s.seq == .idle && s.fault == none && s.dev == .uninitialized && !s.heldElsewhere id

/-- Command acceptance (R170). An internal operation is not a command: it has no condition. -/
def State.accepts (i : Instr) (s : State) : Bool :=
  match i with
  | .transfer _ => true
  | .readRegister _ => true
  | .writeRegister _ _ => true
  | .readBuffer => true
  | .new id => s.acceptsNew id
  | .update => s.acceptsOnReady
  | .getData => s.acceptsOnReady
  | .getFrequency => s.acceptsOnReady
  | .destroy => s.acceptsOnReady

end Sys2Proof.Machine
end

