-- ==== Sys2Proof/Machine/Operands.lean ====
section
/-! DEFINITION. The operand forms: the framing of an address byte (R95, R96, R97), the addresses UPDATE reads (R42),
the byte made of eight samples (R122), and the composition of the two readings (R99, R178). -/

namespace Sys2Proof.Machine

/-- The address byte of a read (R95). -/
def readAddressByte (a : Byte) : Byte := a ||| Config.readFlag

/-- The address byte of a write (R96). -/
def writeAddressByte (a : Byte) : Byte := a &&& Config.addrMask

/-- The register address of UPDATE's r-th read: proximity MSB, LSB, frequency MSB, MID, LSB (R42, R177). -/
def updateAddr (p : Params) (r : Fin 5) : Byte :=
  #v[p.aProxMsb, p.aProxLsb, p.aFreqMsb, p.aFreqMid, p.aFreqLsb][r]

/-- The byte of eight samples, the first in bit 7 (R62, R122). -/
def byteOfSamples (s : Nat → Level) : Byte :=
  BitVec.ofBoolListBE [s 0, s 1, s 2, s 3, s 4, s 5, s 6, s 7]

/-- `PROX <- (zext_16(T[0]) << 8) | zext_16(T[1])` (R178). -/
def composeProx (t : Vector Byte 5) : Half :=
  (t[0].setWidth 16 <<< 8) ||| t[1].setWidth 16

/-- `FREQ <- (zext_32(T[2]) << 16) | (zext_32(T[3]) << 8) | zext_32(T[4])` (R178). -/
def composeFreq (t : Vector Byte 5) : Word :=
  (t[2].setWidth 32 <<< 16) ||| (t[3].setWidth 32 <<< 8) ||| t[4].setWidth 32

end Sys2Proof.Machine
end

