-- ==== Sys2Proof/Machine/Ops.lean ====
section
/-! DEFINITION. The named operations over the state: the environment's answers (R13), the eight line primitives (R12),
one bit slot and one transfer (R121), the register transaction (R140) and the burst (R161), raising a fatal error (R204)
and the reset that is the only way out of one (R208, R230). -/

namespace Sys2Proof.Machine

/-! ### The environment -/

/-- The level the environment answers to the k-th sample from now, k from 0 (R13, log 2). -/
def State.upcoming (s : State) (k : Nat) : Level :=
  (s.samples[k]?).getD (Config.freeSample (s.drawn + (k - s.samples.length)))

/-- The byte that the eight samples from the k-th on make (R122). -/
def State.upcomingByte (s : State) (k : Nat) : Byte := byteOfSamples fun j => s.upcoming (k + j)

/-- The state after the environment has answered `n` more samples. -/
def State.advance (s : State) (n : Nat) : State :=
  { s with samples := s.samples.drop n, drawn := s.drawn + (n - s.samples.length) }

/-! ### The eight line primitives (R12) -/

/-- Records a line event. -/
def State.emit (e : LineEvent) (s : State) : State := { s with log := e :: s.log }

/-- `bind(id)`: takes the four lines and drives the outputs to their initial levels, one step (D3). -/
def bindLines (id : Byte) (s : State) : State :=
  { s.emit (.bind id) with
    di := s.params.diInit, cs := s.params.csInit, clk := s.params.clkInit, bound := true }

/-- `release()`. The level fields keep their value; `BOUND` says that no line is driven (log 20). -/
def releaseLines (s : State) : State := { s.emit .release with bound := false }

/-- `set(DI, b)`. -/
def setDI (b : Level) (s : State) : State := { s.emit (.di b) with di := b }

/-- `set(CS, b)`, low is asserted. -/
def setCS (b : Level) (s : State) : State := { s.emit (.cs b) with cs := b }

/-- `toggle(CLK)`. -/
def toggleCLK (s : State) : State := { s.emit (.ck !s.clk) with clk := !s.clk }

/-- `get(DO)`: the state after the sample; the level sampled is `s.upcoming 0` (R13, R24). -/
def getDO (s : State) : State := (s.advance 1).emit (.sample (s.upcoming 0))

/-- `delay_us(n)`: no register and no line changes (R246). -/
def delayUs (n : Nat) (s : State) : State := s.emit (.wait n)

/-- `pad()` (R149). -/
def padWait (s : State) : State := s.emit .pad

/-! ### The Bit Transfer Engine (R121) -/

/-- Step 1: `set(DI, TX[7])`. -/
def stepDrive (s : State) : State := setDI s.tx.msb s

/-- Step 2, first register (R128). -/
def shiftTx (s : State) : State := { s with tx := s.tx <<< 1 }

/-- Step 2, second register (R128). -/
def shiftRx (s : State) : State := { s with rx := s.rx <<< 1 }

/-- Step 2: both shift registers move left by one. -/
def stepShift (s : State) : State := shiftRx (shiftTx s)

/-- `RX[0] <- 1` if the level sampled is high. -/
def storeBit (b : Level) (s : State) : State := { s with rx := s.rx ||| (if b then 0x01#8 else 0x00#8) }

/-- Step 4: the sample, and what is done with it. -/
def stepSample (s : State) : State := storeBit (s.upcoming 0) (getDO s)

/-- One bit slot: the five steps in their order, the sample between the two toggles (R124). -/
def bitSlot (s : State) : State :=
  toggleCLK (stepSample (toggleCLK (stepShift (stepDrive s))))

/-- `n` bit slots. -/
def bitSlots : Nat → State → State
  | 0, s => s
  | n + 1, s => bitSlots n (bitSlot s)

/-- `TX <- b`. -/
def loadTx (b : Byte) (s : State) : State := { s with tx := b }

/-- `RX <- 0x00` (D5). -/
def clearRx (s : State) : State := { s with rx := 0x00#8 }

/-- The start of a transfer. -/
def loadByte (b : Byte) (s : State) : State := clearRx (loadTx b s)

/-- TRANSFER(b); its result is `RX` of the state it ends in (R121). -/
def transfer (b : Byte) (s : State) : State := bitSlots Config.xferBits (loadByte b s)

/-! ### The Register Access Layer (R140, R161) -/

/-- The six actions of a register transaction, for an address byte and a data byte already framed (R140). Its result is
`RX`; the byte received in the address phase is dropped (R147). -/
def registerFrame (addrByte dataByte : Byte) (s : State) : State :=
  setCS true (transfer dataByte (padWait (transfer addrByte (delayUs Config.tSettle (setCS false s)))))

/-- READ_REGISTER(a) (R141). -/
def readRegister (a : Byte) (s : State) : State := registerFrame (readAddressByte a) Config.readFill s

/-- WRITE_REGISTER(a, v) (R142). -/
def writeRegister (a v : Byte) (s : State) : State := registerFrame (writeAddressByte a) v s

/-- The settle wait of a burst: none in the decided build (R161, D6). -/
def burstSettle (s : State) : State :=
  if s.params.burstSettleUs = 0 then s else delayUs s.params.burstSettleUs s

/-- The pad of a burst: none in the decided build (R161, D6). -/
def burstPad (s : State) : State := if s.params.burstPad then padWait s else s

/-- `BUF[j] <-` the byte of the last transfer. -/
def storeBuf (j : Fin 12) (s : State) : State := { s with buf := s.buf.set j s.rx }

/-- `BUF[j] <- TRANSFER(0x00)`. -/
def captureByte (s : State) (j : Fin 12) : State := storeBuf j (transfer Config.readFill s)

/-- 0 to 11, ascending. -/
def burstIndices : List (Fin 12) := [0, 1, 2, 3, 4, 5, 6, 7, 8, 9, 10, 11]

/-- READ_BUFFER() (R161). -/
def readBuffer (s : State) : State :=
  setCS true (burstIndices.foldl captureByte
    (burstPad (transfer Config.burstOpcode (burstSettle (setCS false s)))))

/-! ### Fatal errors and reset -/

/-- `raise E(info)` (R204): the error is recorded, the command ends, nothing is saved and `DEV` stays as it is. The
sequencer does it in one step (DESIGN CHOICE, log 17). -/
def raise (e : FatalError) (info : Byte) (s : State) : State :=
  { s with fault := some e, faultInfo := info, seq := .idle }

/-- The reset event (R230): every register at its value of R45, the lines released, `SEQ` idle; there is no return from
a fatal error but this one (R208). It sends nothing to the chip, so no line event. The build and what the outside world
holds are not the block's and stay (log 13). -/
def resetBlock (s : State) : State :=
  { State.resetWith s.params with
    pending := s.pending, samples := s.samples, drawn := s.drawn, liveIds := s.liveIds,
    log := s.log, returned := s.returned }

/-- Returns a value to the caller (R188). -/
def State.give (r : Result) (s : State) : State := { s with returned := r :: s.returned }

end Sys2Proof.Machine
end

