-- ==== Sys2Proof/Machine/Burst.lean ====
section
/-! DEFINITION. Burst Capture: READ_BUFFER (R160, R161). -/

namespace Sys2Proof.Machine

/-- READ_BUFFER(): fills `BUF` and returns nothing (R161); the stand-in never writes `BUF` (R186, log 10). -/
def execReadBuffer (s : State) : Host.Outcome State Fault Refusal :=
  .next (match s.params.backend with
    | .real => readBuffer s
    | .stub => s)

end Sys2Proof.Machine
end

