-- ==== Sys2Proof/Machine/Controller.lean ====
section
/-! DEFINITION. The Device Controller: the five host commands (R170 to R186). A command that R170 does not accept
changes no state, produces no line event and returns nothing (log 5). -/

namespace Sys2Proof.Machine

/-- `DEV <- d`. -/
def setDev (d : DevState) (s : State) : State := { s with dev := d }

/-- The eleven initialisation writes, in ascending n, each returned byte dropped (R172). -/
def initWrites (s : State) : State :=
  s.params.initSeq.toList.foldl (fun t e => writeRegister e.1 e.2 t) s

/-- Stage SelfCheck and what follows it: `PresenceError`, or Ready (R174, R175, R202). -/
def selfCheck (s : State) : State :=
  if s.buf[0] = Config.sentinel then setDev .ready s else raise .presenceError s.buf[0] s

/-- `ID <- id`. -/
def setId (id : Byte) (s : State) : State := { s with id := id }

/-- NEW with the real backend: id check, binding, eleven writes, burst, self-check (R171). -/
def construct (id : Byte) (s : State) : State :=
  if s.params.validIds.contains id then
    selfCheck (readBuffer (initWrites (bindLines id (setId id s))))
  else raise .configError id s

/-- NEW(id) (R171, R186). -/
def execNew (id : Byte) (s : State) : Host.Outcome State Fault Refusal :=
  .next (if s.accepts (.new id) then
      match s.params.backend with
      | .real => construct id s
      | .stub => setDev .ready s
    else s)

/-- `T[r] <-` the result of the last read. -/
def storeTmp (r : Fin 5) (s : State) : State := { s with tmp := s.tmp.set r s.rx }

/-- `T[r] <- READ_REGISTER(A_r)` (R177). -/
def readInto (s : State) (r : Fin 5) : State := storeTmp r (readRegister (updateAddr s.params r) s)

/-- 0 to 4, ascending. -/
def updateIndices : List (Fin 5) := [0, 1, 2, 3, 4]

/-- The last stage of UPDATE: both readings are written together (R178). -/
def commitReadings (s : State) : State :=
  { s with prox := composeProx s.tmp, freq := composeFreq s.tmp }

/-- UPDATE() (R177, R186). -/
def execUpdate (s : State) : Host.Outcome State Fault Refusal :=
  .next (if s.accepts .update then
      match s.params.backend with
      | .real => commitReadings (updateIndices.foldl readInto s)
      | .stub => s
    else s)

/-- What GET_DATA returns: `PROX`, or zero under the stand-in (R180, R186). -/
def State.dataResult (s : State) : Half :=
  match s.params.backend with
  | .real => s.prox
  | .stub => 0x0000#16

/-- What GET_FREQUENCY returns: `FREQ`, or zero under the stand-in (R181, R186). -/
def State.frequencyResult (s : State) : Word :=
  match s.params.backend with
  | .real => s.freq
  | .stub => 0x00000000#32

/-- GET_DATA() (R180). -/
def execGetData (s : State) : Host.Outcome State Fault Refusal :=
  .next (if s.accepts .getData then s.give (.data s.dataResult) else s)

/-- GET_FREQUENCY() (R181). -/
def execGetFrequency (s : State) : Host.Outcome State Fault Refusal :=
  .next (if s.accepts .getFrequency then s.give (.frequency s.frequencyResult) else s)

/-- `PROX <- 0`. -/
def clearProx (s : State) : State := { s with prox := 0x0000#16 }

/-- `FREQ <- 0`. -/
def clearFreq (s : State) : State := { s with freq := 0x00000000#32 }

/-- The body of DESTROY: the lines go, the device state and the readings return to their reset values; no frame is sent
(R183). Under the stand-in only `DEV` is written (R186). -/
def teardown (s : State) : State :=
  match s.params.backend with
  | .real => clearFreq (clearProx (setDev .uninitialized (releaseLines s)))
  | .stub => setDev .uninitialized s

/-- DESTROY() (R183, R186). -/
def execDestroy (s : State) : Host.Outcome State Fault Refusal :=
  .next (if s.accepts .destroy then teardown s else s)

end Sys2Proof.Machine
end

