-- ==== Sys2Proof/Machine/RegisterAccess.lean ====
section
/-! DEFINITION. The Register Access Layer: READ_REGISTER and WRITE_REGISTER (R140 to R142). -/

namespace Sys2Proof.Machine

/-- READ_REGISTER(a): the byte of the data phase is returned (R141); under the stand-in zero (R186, log 10). -/
def execReadRegister (a : Byte) (s : State) : Host.Outcome State Fault Refusal :=
  .next (match s.params.backend with
    | .real => let t := readRegister a s; t.give (.byte t.rx)
    | .stub => s.give (.byte 0x00#8))

/-- WRITE_REGISTER(a, v): the byte of the data phase is "made available" (R142); under the stand-in zero (R186,
log 10). -/
def execWriteRegister (a v : Byte) (s : State) : Host.Outcome State Fault Refusal :=
  .next (match s.params.backend with
    | .real => let t := writeRegister a v s; t.give (.byte t.rx)
    | .stub => s.give (.byte 0x00#8))

end Sys2Proof.Machine
end

