-- ==== Sys2Proof/Machine/Transfer.lean ====
section
/-! DEFINITION. The Bit Transfer Engine: TRANSFER (R120, R121). -/

namespace Sys2Proof.Machine

/-- TRANSFER(b): the exchange, and its byte returned (R121). The stand-in does nothing and returns zero (R186, log 10).
Asked for directly, it runs on the lines as they are (log 9). -/
def execTransfer (b : Byte) (s : State) : Host.Outcome State Fault Refusal :=
  .next (match s.params.backend with
    | .real => let t := transfer b s; t.give (.byte t.rx)
    | .stub => s.give (.byte 0x00#8))

end Sys2Proof.Machine
end

