-- ==== Sys2Proof/Machine/Dispatch.lean ====
section
/-! DEFINITION. One arm per operation: the meaning of each. -/

namespace Sys2Proof.Machine

def exec (i : Instr) (s : State) : Host.Outcome State Fault Refusal :=
  match i with
  | .transfer b => Sys2Proof.Machine.execTransfer b s
  | .readRegister a => Sys2Proof.Machine.execReadRegister a s
  | .writeRegister a v => Sys2Proof.Machine.execWriteRegister a v s
  | .readBuffer => Sys2Proof.Machine.execReadBuffer s
  | .new id => Sys2Proof.Machine.execNew id s
  | .update => Sys2Proof.Machine.execUpdate s
  | .getData => Sys2Proof.Machine.execGetData s
  | .getFrequency => Sys2Proof.Machine.execGetFrequency s
  | .destroy => Sys2Proof.Machine.execDestroy s

end Sys2Proof.Machine
end

