-- ==== Sys2Proof/Machine/Sequencer.lean ====
section
/-! DEFINITION. The sequencer, position by position (R36, R37): each step is one line event or one register update, the
step of R9. `exec` runs a whole operation; this file runs a host command as the finite run of steps R9 says it is. -/

namespace Sys2Proof.Machine

/-- The first position of a transfer. -/
def XferPos.first : XferPos := .loadTx

/-- One step of a transfer of `b`, and the position after it: `none` after the last step of the last slot (R121). -/
def xferStep (b : Byte) (x : XferPos) (s : State) : State × Option XferPos :=
  match x with
  | .loadTx => (loadTx b s, some .clearRx)
  | .clearRx => (clearRx s, some (.slot 0 .drive))
  | .slot k .drive => (stepDrive s, some (.slot k .shiftTx))
  | .slot k .shiftTx => (shiftTx s, some (.slot k .shiftRx))
  | .slot k .shiftRx => (shiftRx s, some (.slot k .edge1))
  | .slot k .edge1 => (toggleCLK s, some (.slot k .sample))
  | .slot k .sample => (getDO s, some (.slot k (.store (s.upcoming 0))))
  | .slot k (.store v) => (storeBit v s, some (.slot k .edge2))
  | .slot k .edge2 => (toggleCLK s, if h : k.val + 1 < 8 then some (.slot ⟨k.val + 1, h⟩ .drive) else none)

/-- One step of a register transaction with the given address and data bytes, and the position after it: `none` after
the deassertion (R140). -/
def regStep (addrByte dataByte : Byte) (p : RegPos) (s : State) : State × Option RegPos :=
  match p with
  | .assert => (setCS false s, some .settle)
  | .settle => (delayUs Config.tSettle s, some (.addrPhase .first))
  | .addrPhase x =>
    match xferStep addrByte x s with
    | (t, some y) => (t, some (.addrPhase y))
    | (t, none) => (t, some .pad)
  | .pad => (padWait s, some (.dataPhase .first))
  | .dataPhase x =>
    match xferStep dataByte x s with
    | (t, some y) => (t, some (.dataPhase y))
    | (t, none) => (t, some .deassert)
  | .deassert => (setCS true s, none)

/-- One step of a burst, and the position after it (R161). -/
def bufStep (p : BufPos) (s : State) : State × Option BufPos :=
  match p with
  | .assert => (setCS false s, some (if s.params.burstSettleUs = 0 then .opcode .first else .settle))
  | .settle => (delayUs s.params.burstSettleUs s, some (.opcode .first))
  | .opcode x =>
    match xferStep Config.burstOpcode x s with
    | (t, some y) => (t, some (.opcode y))
    | (t, none) => (t, some (if s.params.burstPad then .pad else .data 0 .first))
  | .pad => (padWait s, some (.data 0 .first))
  | .data j x =>
    match xferStep Config.readFill x s with
    | (t, some y) => (t, some (.data j y))
    | (t, none) => (t, some (.store j))
  | .store j => (storeBuf j s, some (if h : j.val + 1 < 12 then .data ⟨j.val + 1, h⟩ .first else .deassert))
  | .deassert => (setCS true s, none)

/-- Moves the sequencer. -/
def State.goto (q : Seq) (s : State) : State := { s with seq := q }

/-- The position after the n-th write of NEW. -/
def afterWrite (n : Fin 11) : Seq := if h : n.val + 1 < 11 then .newWrite ⟨n.val + 1, h⟩ .assert else .newBurst .assert

/-- The position after `T[r]` is written. -/
def afterRead (r : Fin 5) : Seq := if h : r.val + 1 < 5 then .updateRead ⟨r.val + 1, h⟩ .assert else .updateCommit

/-- One step of the running command; an idle block does not move (R37). -/
def seqStep (s : State) : State :=
  match s.seq with
  | .idle => s
  | .newCheckId id =>
    match s.params.backend with
    | .stub => (setDev .ready s).goto .idle
    | .real =>
      if s.params.validIds.contains id then (setId id s).goto .newBind
      else raise .configError id s
  | .newBind => (bindLines s.id s).goto (.newWrite 0 .assert)
  | .newWrite n p =>
    match regStep (writeAddressByte s.params.initSeq[n].1) s.params.initSeq[n].2 p s with
    | (t, some q) => t.goto (.newWrite n q)
    | (t, none) => t.goto (afterWrite n)
  | .newBurst p =>
    match bufStep p s with
    | (t, some q) => t.goto (.newBurst q)
    | (t, none) => t.goto .newSelfCheck
  | .newSelfCheck => (selfCheck s).goto .idle
  | .updateRead r p =>
    match regStep (readAddressByte (updateAddr s.params r)) Config.readFill p s with
    | (t, some q) => t.goto (.updateRead r q)
    | (t, none) => t.goto (.updateStore r)
  | .updateStore r => (storeTmp r s).goto (afterRead r)
  | .updateCommit => (commitReadings s).goto .idle
  | .get .data => (s.give (.data s.dataResult)).goto .idle
  | .get .frequency => (s.give (.frequency s.frequencyResult)).goto .idle
  | .destroy .release => (releaseLines s).goto (.destroy .dev)
  | .destroy .dev =>
    (setDev .uninitialized s).goto (match s.params.backend with
      | .real => .destroy .prox
      | .stub => .idle)
  | .destroy .prox => (clearProx s).goto (.destroy .freq)
  | .destroy .freq => (clearFreq s).goto .idle

/-- The controller frame an accepted command pushes (R36). The stand-in's UPDATE has nothing to run, and its DESTROY no
lines to release (R186). -/
def startFrame (i : Instr) (s : State) : Seq :=
  match i with
  | .new id => .newCheckId id
  | .update => match s.params.backend with
    | .real => .updateRead 0 .assert
    | .stub => .idle
  | .getData => .get .data
  | .getFrequency => .get .frequency
  | .destroy => match s.params.backend with
    | .real => .destroy .release
    | .stub => .destroy .dev
  | .transfer _ => .idle
  | .readRegister _ => .idle
  | .writeRegister _ _ => .idle
  | .readBuffer => .idle

/-- A host command taken from the port: its frame is pushed if it is accepted (R37, R170). -/
def beginCommand (i : Instr) (s : State) : State :=
  if s.accepts i then s.goto (startFrame i s) else s

/-- `n` steps of the sequencer. -/
def seqRun : Nat → State → State
  | 0, s => s
  | n + 1, s => seqRun n (seqStep s)

end Sys2Proof.Machine
end

