-- ==== Sys2Proof/Machine/Fetch.lean ====
section
/-! DEFINITION. How the next thing the machine does is found: a reset, the running command, or the oldest request. -/

namespace Sys2Proof.Machine

/-- The operation a command of the host port is, if its code is not reserved (R101, R103). -/
def portCommand (code : BitVec 3) (id : Byte) : Except DecodeError Instr := decode .H [code.setWidth 8, id]

/-- The host issues a command (R170, R188): the block takes it from the port and begins it if it accepts it. A reserved
code is refused in the same way: no state change, no line event (R103(b)). -/
def issueCommand (code : BitVec 3) (id : Byte) (s : State) : State :=
  match portCommand code id with
  | .ok i => beginCommand i s
  | .error _ => s

/-- Runs an operation asked for as a whole. A reserved host code is refused as on the port (R103(b)). Bytes that are no
word of their format are refused by the model (log 18). -/
def runWord (fmt : Format) (bytes : List Byte) (s : State) : Host.Outcome State Fault Refusal :=
  match decode fmt bytes with
  | .ok i => exec i s
  | .error .reservedCommand => .next s
  | .error e => .refused (.malformedWord e)

/-- The machine's step. A reset that is the oldest request acts at once, also inside a command: what it does is R230's, the
moment is the model's choice (DESIGN CHOICE, log 21). While `SEQ` is not idle the host has no move
and the sequencer takes its next step, one line event or one register update (R170, R37, R9). An idle block takes its
oldest request: it begins a command of the host, which then runs step by step, or runs a whole operation (log 7); it
waits when there is none (R187, R231). -/
def machineStep (s : State) : Host.Outcome State Fault Refusal :=
  match s.pending, s.seq with
  | .reset :: rest, _ => .next (resetBlock { s with pending := rest })
  | .command code id :: rest, .idle => .next (issueCommand code id { s with pending := rest })
  | .op fmt bytes :: rest, .idle => runWord fmt bytes { s with pending := rest }
  | [], .idle => .next s
  | _, _ => .next (seqStep s)

/-- The state with a word of the table as its oldest request, and idle so that the next step takes it and runs it as a
whole (log 8). -/
def placeWord (s : State) (nbits w : Nat) : State :=
  { s with pending := .op (tableLayout nbits w).1 (tableLayout nbits w).2 :: s.pending, seq := .idle }

end Sys2Proof.Machine
end

