-- ==== Sys2Proof/Machine/Step.lean ====
section
/-! DEFINITION. The step of the machine (R9, R37, log 7) and where the host puts a word of the table (log 8). -/

namespace Sys2Proof.Machine

def step (s : State) : Host.Outcome State Fault Refusal := machineStep s

def State.withFetchWord (s : State) (nbits w : Nat) : State := placeWord s nbits w

end Sys2Proof.Machine
end

