-- ==== Sys2Proof/Machine/Port.lean ====
section
/-! DEFINITION. What the outside sees: the host port (R188) and the lines while the block drives them (R34). -/

namespace Sys2Proof.Machine

/-- The busy output: `SEQ != Idle` (R188). -/
def State.busy (s : State) : Bool := s.seq != .idle

/-- The status output: `DEV`, `FAULT`, `FAULT_INFO` (R188). -/
def State.status (s : State) : BitVec 1 × BitVec 2 × Byte := (s.dev.code, faultCode s.fault, s.faultInfo)

/-- The levels of `DI`, `CS`, `CLK`; none while `BOUND = 0` (R34). -/
def State.linesOut (s : State) : Option (Level × Level × Level) :=
  if s.bound then some (s.di, s.cs, s.clk) else none

end Sys2Proof.Machine
end

