-- ==== Sys2Proof/Machine/Memory.lean ====
section
/-! DEFINITION. A register space of the chip's shape: 128 byte registers at addresses 0x00 to 0x7F (R43, R60), as a list
of cells in one canonical form. The block holds no such space; the reference responder does (D18, log 15). -/

namespace Sys2Proof.Machine

/-- The listed registers; an unlisted one reads 0x00. -/
abbrev Memory := List Host.Cell

/-- What an unlisted register reads as (log 15). -/
def Memory.unlisted : Byte := 0x00#8

/-- The byte at an address. -/
def Memory.read : Memory → Nat → Byte
  | [], _ => Memory.unlisted
  | (b, v) :: m, a => if b = a then v else Memory.read m a

/-- Puts a byte at an address; the value an unlisted register reads as removes the cell. -/
def Memory.write : Memory → Nat → Byte → Memory
  | [], a, v => if v = Memory.unlisted then [] else [(a, v)]
  | (b, w) :: m, a, v =>
    if a < b then (if v = Memory.unlisted then (b, w) :: m else (a, v) :: (b, w) :: m)
    else if a = b then (if v = Memory.unlisted then m else (a, v) :: m)
    else (b, w) :: Memory.write m a v

/-- The canonical form: addresses strictly rising and below 128, no cell equal to an unlisted one. -/
def Memory.wf (m : Memory) : Bool :=
  decide (m.Pairwise (fun x y => x.1 < y.1)) && m.all fun c => decide (c.1 < 128) && c.2 != Memory.unlisted

end Sys2Proof.Machine
end

