-- ==== Sys2Proof/Machine/Responder.lean ====
section
/-! DEFINITION. The reference responder of 92_eei_decisions.md D18: a stand-in for the environment, never a fact about the
sensor chip (R13, log 15). A claim uses it only as the premise `Responder.follows`, about a trace. -/

namespace Sys2Proof.Machine

/-- The responder's state: D18's `REG`, `sel`, `n`, `rw`, `ptr`, `out`, `in`, and where it is inside a byte. -/
structure Responder where
  /-- `REG[0x00..0x7F]`. -/
  reg : Memory
  /-- A frame is open. -/
  sel : Bool
  /-- Bytes completed in this frame. -/
  n : Nat
  /-- The first bit of the frame. -/
  rw : Bool
  /-- The register pointer. -/
  ptr : BitVec 7
  /-- The byte being shifted out. -/
  out : Byte
  /-- The byte being shifted in. -/
  shiftIn : Byte
  /-- The level last seen on `DI`. -/
  di : Level
  /-- The bit slot, 0 to 7. -/
  slot : Nat
  /-- The first toggle of the slot has been seen. -/
  half : Bool
deriving DecidableEq, Repr

/-- A responder between two frames. -/
def Responder.withRegs (m : Memory) : Responder where
  reg := m
  sel := false
  n := 0
  rw := false
  ptr := 0#7
  out := 0#8
  shiftIn := 0#8
  di := false
  slot := 0
  half := false

/-- When a byte completes (D18). -/
def Responder.byteDone (r : Responder) : Responder :=
  if r.n = 0 then
    { r with
      rw := r.shiftIn.msb, ptr := r.shiftIn.setWidth 7, n := 1
      out := if r.shiftIn.msb then r.reg.read (r.shiftIn.setWidth 7).toNat else 0x00#8 }
  else if r.rw then
    { r with ptr := r.ptr + 1, n := r.n + 1, out := r.reg.read (r.ptr + 1).toNat }
  else
    { r with
      reg := r.reg.write r.ptr.toNat r.shiftIn, ptr := r.ptr + 1, n := r.n + 1, out := 0x00#8 }

/-- The level the responder puts on `DO` now: `out[7-k]` in slot k. -/
def Responder.answer (r : Responder) : Level := r.out.getMsbD r.slot

/-- The responder sees a line event; `none` if the event is a sample it would not have answered so. -/
def Responder.react (r : Responder) : LineEvent → Option Responder
  | .cs false => some { r with sel := true, n := 0, out := 0x00#8, shiftIn := 0x00#8, slot := 0, half := false }
  | .cs true => some { r with sel := false }
  | .di b => some { r with di := b }
  | .ck _ =>
    if r.half then
      if r.slot = 7 then some (Responder.byteDone { r with slot := 0, half := false })
      else some { r with slot := r.slot + 1, half := false }
    else some { r with shiftIn := (r.shiftIn <<< 1) ||| (if r.di then 0x01#8 else 0x00#8), half := true }
  | .sample b => if b = r.answer then some r else none
  | .wait _ => some r
  | .pad => some r
  | .bind _ => some r
  | .release => some r

/-- The premise: every sample of the events, in order, is the responder's answer; the result is the responder after
them. -/
def Responder.follows (r : Responder) : List LineEvent → Option Responder
  | [] => some r
  | e :: l => match r.react e with
    | some r' => r'.follows l
    | none => none

end Sys2Proof.Machine
end

