-- ==== Sys2Proof/Machine/Trace.lean ====
section
/-! DEFINITION. The traces the rules state in closed form (R125, R145, R162, R176, R179) and the counts of R249. Claims
are stated with them; the machine does not use them. -/

namespace Sys2Proof.Machine

/-- The 32 events of a transfer of `b` that receives `r`, from clock level `c` (R125). -/
def transferEvents (c : Level) (b r : Byte) : List LineEvent :=
  (List.range 8).flatMap fun k => [.di (b.getMsbD k), .ck (!c), .sample (r.getMsbD k), .ck c]

/-- The 68 events of a register transaction: address byte `a`, data byte `d`, received bytes `qa` and `qd` (R145). -/
def registerEvents (c : Level) (a d qa qd : Byte) : List LineEvent :=
  [.cs false, .wait 2] ++ transferEvents c a qa ++ [.pad] ++ transferEvents c d qd ++ [.cs true]

/-- The events of a burst that receives `q0` with the opcode and then the bytes `q`; 418 of them in the decided build
(R162). -/
def burstEvents (p : Params) (c : Level) (q0 : Byte) (q : List Byte) : List LineEvent :=
  [.cs false] ++ (if p.burstSettleUs = 0 then [] else [.wait p.burstSettleUs])
    ++ transferEvents c 0x80#8 q0 ++ (if p.burstPad then [.pad] else [])
    ++ q.flatMap (transferEvents c 0x00#8) ++ [.cs true]

/-- The events of a list of register writes, one transaction each (R145). -/
def writesEvents (l : List (Byte × Byte)) (c : Level) (q : Nat → Byte) : List LineEvent :=
  l.zipIdx.flatMap fun w =>
    registerEvents c (w.1.1 &&& 0x7F#8) w.1.2 (q (2 * w.2)) (q (2 * w.2 + 1))

/-- The events of the eleven initialisation writes; `q` gives the byte received in the m-th transfer (R172). -/
def initEvents (p : Params) (c : Level) (q : Nat → Byte) : List LineEvent := writesEvents p.initSeq.toList c q

/-- The events of NEW(id) with a valid id (R176): the binding, eleven writes, one burst. -/
def newEvents (p : Params) (id : Byte) (q : Nat → Byte) : List LineEvent :=
  .bind id :: initEvents p p.clkInit q
    ++ burstEvents p p.clkInit (q 22) ((List.range 12).map fun j => q (23 + j))

/-- The events of UPDATE (R177, R179): five read transactions, their addresses in the order the rule lists them. -/
def updateEvents (p : Params) (c : Level) (q : Nat → Byte) : List LineEvent :=
  registerEvents c (p.aProxMsb ||| 0x80#8) 0x00#8 (q 0) (q 1)
    ++ registerEvents c (p.aProxLsb ||| 0x80#8) 0x00#8 (q 2) (q 3)
    ++ registerEvents c (p.aFreqMsb ||| 0x80#8) 0x00#8 (q 4) (q 5)
    ++ registerEvents c (p.aFreqMid ||| 0x80#8) 0x00#8 (q 6) (q 7)
    ++ registerEvents c (p.aFreqLsb ||| 0x80#8) 0x00#8 (q 8) (q 9)

/-- The byte the m-th transfer from now receives (R122). -/
def State.received (s : State) (m : Nat) : Byte := s.upcomingByte (8 * m)

/-- The twelve bytes that the transfers from the m-th on receive. -/
def State.capture (s : State) (m : Nat) : Vector Byte 12 := Vector.ofFn fun j => s.received (m + j.val)

/-- The five bytes UPDATE's data phases receive. -/
def State.readings (s : State) : Vector Byte 5 := Vector.ofFn fun r => s.received (2 * r.val + 1)

/-- `CK=` events (R249). -/
def toggles (l : List LineEvent) : Nat := l.countP fun | .ck _ => true | _ => false

/-- `DO?` events (R249). -/
def sampleCount (l : List LineEvent) : Nat := l.countP fun | .sample _ => true | _ => false

/-- `WAIT(2)` events (R249). -/
def settleWaits (l : List LineEvent) : Nat := l.count (.wait 2)

/-- `PAD` events (R249). -/
def pads (l : List LineEvent) : Nat := l.count .pad

/-- Line events, toggles, samples, settle waits and pads of a list of events: a row of R249. -/
def eventCounts (l : List LineEvent) : List Nat := [l.length, toggles l, sampleCount l, settleWaits l, pads l]

/-- The row of R249 for an operation run in the state `s`; a refused command has the row of zeros (R170). -/
def State.countsOf (s : State) (i : Instr) : List Nat :=
  if s.params.backend = .stub ∨ s.accepts i = false then [0, 0, 0, 0, 0]
  else match i with
    | .transfer _ => [32, 16, 8, 0, 0]
    | .readRegister _ => [68, 32, 16, 1, 1]
    | .writeRegister _ _ => [68, 32, 16, 1, 1]
    | .readBuffer => [418, 208, 104, 0, 0]
    | .new id => if id ∈ s.params.validIds then [1167, 560, 280, 11, 11] else [0, 0, 0, 0, 0]
    | .update => [340, 160, 80, 5, 5]
    | .getData => [0, 0, 0, 0, 0]
    | .getFrequency => [0, 0, 0, 0, 0]
    | .destroy => [1, 0, 0, 0, 0]

/-- The event without the level the environment chose: what the order and number of events are made of (R37). -/
def LineEvent.skeleton : LineEvent → LineEvent
  | .sample _ => .sample false
  | e => e

end Sys2Proof.Machine
end

