-- ==== Sys2Proof/Safety.lean ====
section
/-! DEFINITION. What counts as a safe run, in the terms claims use: the verdict on the state a run ends in (R208), the
programs and steps of R9, the invariants of R46 at and between the steps of a command, and the frame monitor that knows
the frames the block may produce (R104). -/

namespace Sys2Proof.Machine

/-- How a run that ends in `s` ends: with `FAULT` set it is a fault outcome, never a successful final state (R208). -/
def Safety.verdict (s : State) : Host.Outcome State Fault Refusal :=
  if s.fault = none then .next s else .fault .fatalRecorded

/-- `n` steps of the machine. -/
def State.run : Nat → State → Host.Outcome State Fault Refusal
  | 0, s => .next s
  | n + 1, s => match step s with
    | .next t => t.run n
    | .fault f => .fault f
    | .refused r => .refused r

/-- Operations run as a whole, one after another. -/
def execAll : List Instr → State → Host.Outcome State Fault Refusal
  | [], s => .next s
  | i :: l, s => match exec i s with
    | .next t => execAll l t
    | .fault f => .fault f
    | .refused r => .refused r

/-- The request is a host command or a reset: nothing asks for an internal operation (R9, R188). -/
def Request.fromHost : Request → Bool
  | .command _ _ => true
  | .op .H _ => true
  | .op .B _ => false
  | .op .R _ => false
  | .op .S _ => false
  | .reset => true

/-- Every request still to come is the host's: the rest of a program (R9). -/
def State.hostOnly (s : State) : Bool := s.pending.all Request.fromHost

/-- A host command asked for as a whole (log 7), or a reset. -/
def Request.isWhole : Request → Bool
  | .command _ _ => false
  | .op .H _ => true
  | .op .B _ => false
  | .op .R _ => false
  | .op .S _ => false
  | .reset => true

/-- Every request still to come is a host command to be run as a whole, or a reset. -/
def State.wholeOnly (s : State) : Bool := s.pending.all Request.isWhole

/-- What one step of the sequencer may do, its own position aside (R9, R37): nothing, one line primitive, or one update. The
binding is one step (D3), a release is one primitive (R12), both readings are written together (R178). DESIGN CHOICE
(log 17): a `raise` records its error and the information in one step, and a check and the write it leads to are one. -/
inductive AtomicStep : State → State → Prop where
  | none (s : State) : AtomicStep s s
  | bind (s : State) : AtomicStep s (bindLines s.id s)
  | release (s : State) : AtomicStep s (releaseLines s)
  | di (s : State) (b : Level) : AtomicStep s (setDI b s)
  | cs (s : State) (b : Level) : AtomicStep s (setCS b s)
  | clk (s : State) : AtomicStep s (toggleCLK s)
  | sample (s : State) : AtomicStep s (getDO s)
  | wait (s : State) (n : Nat) : AtomicStep s (delayUs n s)
  | pad (s : State) : AtomicStep s (padWait s)
  | tx (s : State) (b : Byte) : AtomicStep s { s with tx := b }
  | rx (s : State) (b : Byte) : AtomicStep s { s with rx := b }
  | tmp (s : State) (r : Fin 5) : AtomicStep s (storeTmp r s)
  | buf (s : State) (j : Fin 12) : AtomicStep s (storeBuf j s)
  | id (s : State) (i : Byte) : AtomicStep s (setId i s)
  | dev (s : State) (d : DevState) : AtomicStep s (setDev d s)
  | readings (s : State) : AtomicStep s (commitReadings s)
  | prox (s : State) : AtomicStep s (clearProx s)
  | freq (s : State) : AtomicStep s (clearFreq s)
  | error (s : State) (e : FatalError) (info : Byte) : AtomicStep s { s with fault := some e, faultInfo := info }
  | answer (s : State) (r : Result) : AtomicStep s (s.give r)

/-! ### The invariants of R46 -/

/-- What R46 states of an idle block with the real backend, and the two facts its induction needs: an error leaves `DEV`
uninitialized (R204), and a block neither constructed nor failed owns no lines. -/
def State.realInv (s : State) : Prop :=
  (s.bound = true → s.cs = true ∧ s.clk = s.params.clkInit) ∧
  (s.dev = .ready → s.fault = none ∧ s.bound = true ∧ s.buf[0] = 0x80#8) ∧
  (s.fault = some .configError → s.bound = false) ∧
  (s.fault = some .presenceError → s.bound = true ∧ s.faultInfo = s.buf[0] ∧ s.buf[0] ≠ 0x80#8) ∧
  (s.dev = .uninitialized → s.fault = none → s.bound = false)

/-- What R46 states of the stand-in. -/
def State.stubInv (s : State) : Prop :=
  s.bound = false ∧ s.prox = 0#16 ∧ s.freq = 0#32 ∧ s.fault = none

/-- The invariants of R46, for an idle block whose program is run as wholes (log 7). -/
def State.idleInv (s : State) : Prop :=
  s.seq = .idle ∧ s.wholeOnly = true ∧ s.freq.extractLsb 31 24 = 0x00#8 ∧
  (s.params.backend = .real → s.realInv) ∧ (s.params.backend = .stub → s.stubInv)

/-! ### Inside a command: what each position adds to R46 -/

/-- Between the two toggles of a slot the clock is not at its resting level. -/
def XferPos.flipped : XferPos → Bool
  | .slot _ .sample => true
  | .slot _ (.store _) => true
  | .slot _ .edge2 => true
  | .slot _ .drive => false
  | .slot _ .shiftTx => false
  | .slot _ .shiftRx => false
  | .slot _ .edge1 => false
  | .loadTx => false
  | .clearRx => false

/-- The level of `CS` at a position of a register transaction, and whether the clock is inverted there. -/
def RegPos.lines : RegPos → Level × Bool
  | .assert => (true, false)
  | .settle => (false, false)
  | .addrPhase x => (false, x.flipped)
  | .pad => (false, false)
  | .dataPhase x => (false, x.flipped)
  | .deassert => (false, false)

/-- The same for a burst. -/
def BufPos.lines : BufPos → Level × Bool
  | .assert => (true, false)
  | .settle => (false, false)
  | .opcode x => (false, x.flipped)
  | .pad => (false, false)
  | .data _ x => (false, x.flipped)
  | .store _ => (false, false)
  | .deassert => (false, false)

/-- The lines are owned and at the levels of a position. -/
def State.linesAt (s : State) (l : Level × Bool) : Prop :=
  s.bound = true ∧ s.cs = l.1 ∧ s.clk = (s.params.clkInit ^^ l.2)

/-- What holds of a constructed block with the real backend. -/
def State.constructed (s : State) : Prop := s.dev = .ready ∧ s.fault = none ∧ s.buf[0] = 0x80#8

/-- The same for the n-th write of NEW: the first begins as `bind` left the lines, `CS` at `CS_INIT` (D2, D3). -/
def writeLines (csInit : Level) (n : Fin 11) (p : RegPos) : Level × Bool :=
  if n = 0 ∧ p = .assert then (csInit, false) else p.lines

/-- What holds of a block with the real backend at its position: R46 when idle, and inside a command the facts that
lead back to it. -/
def State.realRunInv (s : State) : Prop :=
  match s.seq with
  | .idle => s.realInv
  | .newCheckId _ => s.dev = .uninitialized ∧ s.fault = none ∧ s.bound = false
  | .newBind => s.dev = .uninitialized ∧ s.fault = none ∧ s.bound = false
  | .newWrite n p => s.dev = .uninitialized ∧ s.fault = none ∧ s.linesAt (writeLines s.params.csInit n p)
  | .newBurst p => s.dev = .uninitialized ∧ s.fault = none ∧ s.linesAt p.lines
  | .newSelfCheck => s.dev = .uninitialized ∧ s.fault = none ∧ s.linesAt (true, false)
  | .updateRead _ p => s.constructed ∧ s.linesAt p.lines
  | .updateStore _ => s.constructed ∧ s.linesAt (true, false)
  | .updateCommit => s.constructed ∧ s.linesAt (true, false)
  | .get _ => s.constructed ∧ s.linesAt (true, false)
  | .destroy .release => s.constructed ∧ s.linesAt (true, false)
  | .destroy .dev => s.dev = .ready ∧ s.fault = none ∧ s.bound = false
  | .destroy .prox => s.dev = .uninitialized ∧ s.fault = none ∧ s.bound = false
  | .destroy .freq => s.dev = .uninitialized ∧ s.fault = none ∧ s.bound = false

/-- The positions the stand-in passes (R186). -/
def Seq.ofStub : Seq → Bool
  | .idle => true
  | .newCheckId _ => true
  | .get _ => true
  | .destroy .dev => true
  | .destroy .release => false
  | .destroy .prox => false
  | .destroy .freq => false
  | .newBind => false
  | .newWrite _ _ => false
  | .newBurst _ => false
  | .newSelfCheck => false
  | .updateRead _ _ => false
  | .updateStore _ => false
  | .updateCommit => false

/-- The invariants of R46 of a block that runs a host's program, at any position of any command. -/
def State.blockInv (s : State) : Prop :=
  s.hostOnly = true ∧ s.freq.extractLsb 31 24 = 0x00#8 ∧
  (s.params.backend = .real → s.realRunInv) ∧
  (s.params.backend = .stub → s.stubInv ∧ s.seq.ofStub = true)

/-! ### The frame monitor (R104) -/

/-- Where a trace is, as a watcher of the lines sees it. -/
inductive FramePhase where
  /-- `CS` is high: no frame is open. -/
  | closed
  /-- A frame is open, at the start of a bit slot. -/
  | slotStart
  /-- `DI` has been driven. -/
  | driven
  /-- The first toggle has been seen. -/
  | clocked
  /-- `DO` has been sampled. -/
  | sampled
deriving DecidableEq, Repr

/-- The monitor: the phase, and the levels driven on `DI` in the open frame, the newest first. -/
structure Monitor where
  phase : FramePhase
  bits : List Level
deriving DecidableEq, Repr

/-- The bit strings a frame may carry on `DI`, first bit first (R104): sixteen bits, whose data byte is 0x00 in a read;
or the 104 bits of a burst. -/
def legalFrame (bits : List Level) : Bool :=
  (bits.length == 16 && (bits.head? == some false || (bits.drop 8).all (! ·)))
    || bits == true :: List.replicate 103 false

/-- The monitor sees a line event; `none` where R104 and R124 allow no such event. -/
def Monitor.see (m : Monitor) (e : LineEvent) : Option Monitor :=
  match m.phase, e with
  | .closed, .cs false => some ⟨.slotStart, []⟩
  | .closed, .bind _ => some m
  | .closed, .release => some m
  | .slotStart, .di b => some ⟨.driven, b :: m.bits⟩
  | .slotStart, .wait _ => if m.bits.length % 8 = 0 then some m else none
  | .slotStart, .pad => if m.bits.length % 8 = 0 then some m else none
  | .slotStart, .cs true => if legalFrame m.bits.reverse then some ⟨.closed, []⟩ else none
  | .driven, .ck _ => some { m with phase := .clocked }
  | .clocked, .sample _ => some { m with phase := .sampled }
  | .sampled, .ck _ => some { m with phase := .slotStart }
  | _, _ => none

/-- The monitor over a list of events, in order. -/
def Monitor.watch (m : Monitor) : List LineEvent → Option Monitor
  | [] => some m
  | e :: l => match m.see e with
    | some m' => m'.watch l
    | none => none

/-- No frame is open. -/
def Monitor.start : Monitor := ⟨.closed, []⟩

/-- The trace holds whole legal frames only, and no event outside them but `BIND` and `RELEASE` (R104, R143). -/
def State.wellFramed (s : State) : Bool := Monitor.start.watch s.trace == some Monitor.start

/-! ### The monitor inside a frame: what it has seen at each position -/

/-- The levels of a byte on `DI`, first bit first (R91). -/
def wireBits (b : Byte) : List Level := (List.range 8).map (b.getMsbD ·)

/-- What the monitor has seen at a position of a transfer of `b`, after the levels `l` of the frame. -/
def XferPos.view (b : Byte) (l : List Level) : XferPos → Monitor
  | .loadTx => ⟨.slotStart, l⟩
  | .clearRx => ⟨.slotStart, l⟩
  | .slot k .drive => ⟨.slotStart, ((wireBits b).take k.val).reverse ++ l⟩
  | .slot k .shiftTx => ⟨.driven, ((wireBits b).take (k.val + 1)).reverse ++ l⟩
  | .slot k .shiftRx => ⟨.driven, ((wireBits b).take (k.val + 1)).reverse ++ l⟩
  | .slot k .edge1 => ⟨.driven, ((wireBits b).take (k.val + 1)).reverse ++ l⟩
  | .slot k .sample => ⟨.clocked, ((wireBits b).take (k.val + 1)).reverse ++ l⟩
  | .slot k (.store _) => ⟨.sampled, ((wireBits b).take (k.val + 1)).reverse ++ l⟩
  | .slot k .edge2 => ⟨.sampled, ((wireBits b).take (k.val + 1)).reverse ++ l⟩

/-- What `TX` holds at a position of a transfer of `b`; nothing is known before the load. -/
def XferPos.sending (b : Byte) : XferPos → Option Byte
  | .loadTx => none
  | .clearRx => some b
  | .slot k .drive => some (b <<< k.val)
  | .slot k .shiftTx => some (b <<< k.val)
  | .slot k .shiftRx => some (b <<< (k.val + 1))
  | .slot k .edge1 => some (b <<< (k.val + 1))
  | .slot k .sample => some (b <<< (k.val + 1))
  | .slot k (.store _) => some (b <<< (k.val + 1))
  | .slot k .edge2 => some (b <<< (k.val + 1))

/-- The same for a register transaction: the monitor, and `TX`. -/
def RegPos.view (a d : Byte) : RegPos → Monitor × Option Byte
  | .assert => (.start, none)
  | .settle => (⟨.slotStart, []⟩, none)
  | .addrPhase x => (x.view a [], x.sending a)
  | .pad => (⟨.slotStart, (wireBits a).reverse⟩, none)
  | .dataPhase x => (x.view d (wireBits a).reverse, x.sending d)
  | .deassert => (⟨.slotStart, (wireBits d).reverse ++ (wireBits a).reverse⟩, none)

/-- The levels of a burst up to its j-th data byte, the newest first. -/
def burstSeen (j : Nat) : List Level := List.replicate (8 * j) false ++ (wireBits Config.burstOpcode).reverse

/-- The same for a burst. -/
def BufPos.view : BufPos → Monitor × Option Byte
  | .assert => (.start, none)
  | .settle => (⟨.slotStart, []⟩, none)
  | .opcode x => (x.view Config.burstOpcode [], x.sending Config.burstOpcode)
  | .pad => (⟨.slotStart, burstSeen 0⟩, none)
  | .data j x => (x.view Config.readFill (burstSeen j.val), x.sending Config.readFill)
  | .store j => (⟨.slotStart, burstSeen (j.val + 1)⟩, none)
  | .deassert => (⟨.slotStart, burstSeen 12⟩, none)

/-- What the monitor has seen, and what `TX` holds, at the block's position. -/
def State.view (s : State) : Monitor × Option Byte :=
  match s.seq with
  | .newWrite n p => p.view (writeAddressByte s.params.initSeq[n].1) s.params.initSeq[n].2
  | .newBurst p => p.view
  | .updateRead r p => p.view (readAddressByte (updateAddr s.params r)) Config.readFill
  | .idle => (.start, none)
  | .newCheckId _ => (.start, none)
  | .newBind => (.start, none)
  | .newSelfCheck => (.start, none)
  | .updateStore _ => (.start, none)
  | .updateCommit => (.start, none)
  | .get _ => (.start, none)
  | .destroy _ => (.start, none)

/-- The trace holds whole legal frames, and then what the block's position says of the frame it is in. -/
def State.framed (s : State) : Prop :=
  Monitor.start.watch s.trace = some s.view.1 ∧ ∀ b, s.view.2 = some b → s.tx = b

end Sys2Proof.Machine
end

