-- ==== Sys2Proof/Certificates/Slice0/Obligations.lean ====
section
/-! DEFINITION. The statements for the provers. Each says something of every state that meets its hypotheses, also of
states no run reaches. A next state is written out whole, so that it says what is left unchanged as well; `log` holds the
newest event first, so the events of an operation stand reversed before it. -/

open Sys2Proof Sys2Proof.Machine

/-! ### Encodings -/

/-- Decoding an encoded operation gives it back, its register address in canonical form (R91 to R101, R60); a well-formed
operation comes back as it is. The two bytes of a command word are the model's layout (log 12). -/
def Obligations.DecodeAfterEncode : Prop :=
  ∀ i : Instr, decode i.format (encode i) = .ok i.canon ∧
    (i.wf = true → decode i.format (encode i) = .ok i)

/-- Every wire word the decoder reads is the encoding of what it reads, bit for bit (R91, R92, R93, R102). Of a command
word that is said of the code, and for NEW of the id; the operand lines of a command without operand are not read, so
the words of such a command differ in their second byte (R101, log 12). -/
def Obligations.EncodeAfterDecode : Prop :=
  ∀ (f : Format) (bytes : List Byte) (i : Instr), decode f bytes = .ok i →
    i.format = f ∧ i.wf = true ∧ (f ≠ .H → encode i = bytes) ∧
    (f = .H → (encode i).head? = bytes.head?) ∧ (∀ id, i = .new id → encode i = bytes)

/-- Words written out from the encoding tables decode to the operations they stand for (V6 to V9, V11, R101), and the
reserved host codes to none (R103). -/
def Obligations.SpecWordsDecode : Prop :=
  decodeTableWord 16 0b1010000100000000 = some (.readRegister 0x21#8) ∧
  decodeTableWord 16 0b0000101100000001 = some (.writeRegister 0x0B#8 0x01#8) ∧
  decodeTableWord 16 0b0111111111111111 = some (.writeRegister 0x7F#8 0xFF#8) ∧
  decodeTableWord 104 (0b10000000 <<< 96) = some .readBuffer ∧
  decode .B [0b10100101#8] = .ok (.transfer 0xA5#8) ∧
  decode .H [0b000#8, 7#8] = .ok (.new 7#8) ∧
  [1, 2, 3, 4].map (decodeTableWord 8) = [some .update, some .getData, some .getFrequency, some .destroy] ∧
  [5, 6, 7].map (decodeTableWord 8) = [none, none, none]

/-- The address byte of a read has bit 7 set, that of a write bit 7 clear; the other seven bits are the operand's, and
bit 7 of the operand has no effect (R95, R96). -/
def Obligations.AddressByteFraming : Prop :=
  ∀ a v : Byte,
    (encode (.readRegister a)).head? = some (a ||| 0x80#8) ∧
    (a ||| 0x80#8).msb = true ∧ (a ||| 0x80#8).extractLsb 6 0 = a.extractLsb 6 0 ∧
    (a ^^^ 0x80#8) ||| 0x80#8 = a ||| 0x80#8 ∧
    (encode (.writeRegister a v)).head? = some (a &&& 0x7F#8) ∧
    (a &&& 0x7F#8).msb = false ∧ (a &&& 0x7F#8).extractLsb 6 0 = a.extractLsb 6 0 ∧
    (a ^^^ 0x80#8) &&& 0x7F#8 = a &&& 0x7F#8 ∧ a &&& ~~~0x80#8 = a &&& 0x7F#8

/-- The operands `a` and `a ^ 0x80` name the same register: the operations have the same effect (R60). -/
def Obligations.AddressBit7HasNoEffect : Prop :=
  ∀ (a v : Byte) (s : State),
    exec (.readRegister (a ^^^ 0x80#8)) s = exec (.readRegister a) s ∧
    exec (.writeRegister (a ^^^ 0x80#8) v) s = exec (.writeRegister a v) s

/-! ### The Bit Transfer Engine -/

/-- TRANSFER(b) with the real backend: it completes; the byte received is the eight answers of the environment, the first
in bit 7; the 32 events stand in their order, the sample between the two toggles; `TX` is 0, `DI` is `b[0]`, `CLK` as it
was, everything else unchanged (R122, R123, R125). -/
def Obligations.TransferNextState : Prop :=
  ∀ (b : Byte) (s : State), s.params.backend = .real →
    exec (.transfer b) s = .next { s.advance 8 with
      di := b.getLsbD 0
      tx := 0x00#8
      rx := s.upcomingByte 0
      log := (transferEvents s.clk b (s.upcomingByte 0)).reverse ++ s.log
      returned := .byte (s.upcomingByte 0) :: s.returned }

/-- In slot k the level driven is `b[7-k]`, and bit `7-k` of the result is the k-th answer of the environment, whatever
`TX` and `RX` held before (R122). -/
def Obligations.TransferClosedForm : Prop :=
  ∀ (b x y : Byte) (s t : State), s.params.backend = .real →
    exec (.transfer b) { s with tx := x, rx := y } = .next t →
    (∀ k, k < 8 → t.rx.getLsbD (7 - k) = s.upcoming k) ∧ t.returned = .byte t.rx :: s.returned ∧
    ∀ k, k < 8 → t.trace[s.log.length + 4 * k]? = some (.di (b.getLsbD (7 - k)))

/-- Loopback: if every sample equals the level of `DI` in its slot, the byte returned is the byte sent (R127). -/
def Obligations.TransferLoopback : Prop :=
  ∀ (b : Byte) (s : State) (rest : List Level), s.params.backend = .real →
    s.samples = (List.range 8).map (fun k => b.getMsbD k) ++ rest →
    ∃ t, exec (.transfer b) s = .next t ∧ t.returned = .byte b :: s.returned ∧ t.samples = rest

/-! ### The Register Access Layer -/

/-- READ_REGISTER and WRITE_REGISTER with the real backend complete: exactly the 68 events of R145, the first phase
carrying `a | 0x80` or `a & 0x7F` and the second 0x00 or `v` (R144); the byte returned is that of the data phase; at the
end `CS` is high, `CLK` as it was, `DI` the last bit sent, `TX` 0; everything else unchanged. -/
def Obligations.RegisterTransactionNextState : Prop :=
  ∀ (a v : Byte) (s : State), s.params.backend = .real →
    exec (.readRegister a) s = .next { s.advance 16 with
      di := false
      cs := true
      tx := 0x00#8
      rx := s.upcomingByte 8
      log := (registerEvents s.clk (a ||| 0x80#8) 0x00#8 (s.upcomingByte 0) (s.upcomingByte 8)).reverse ++ s.log
      returned := .byte (s.upcomingByte 8) :: s.returned } ∧
    exec (.writeRegister a v) s = .next { s.advance 16 with
      di := v.getLsbD 0
      cs := true
      tx := 0x00#8
      rx := s.upcomingByte 8
      log := (registerEvents s.clk (a &&& 0x7F#8) v (s.upcomingByte 0) (s.upcomingByte 8)).reverse ++ s.log
      returned := .byte (s.upcomingByte 8) :: s.returned }

/-- READ_BUFFER with the real backend completes: `BUF[j]` is the byte of the transfer j + 1, counting the opcode's as 0;
at the end `CS` is high, `CLK` as it was, `DI` low, `TX` 0, `RX` the last byte; everything else unchanged (R164). -/
def Obligations.BurstNextState : Prop :=
  ∀ s : State, s.params.backend = .real →
    exec .readBuffer s = .next { s.advance 104 with
      di := false
      cs := true
      tx := 0x00#8
      rx := s.received 12
      buf := Vector.ofFn fun j => s.received (j.val + 1)
      log := (burstEvents s.params s.clk (s.received 0)
        ((List.range 12).map fun j => s.received (j + 1))).reverse ++ s.log }

/-- Chip-select is asserted strictly before and deasserted strictly after the transfers of a register transaction or a
burst, and not touched between (R143, R163). -/
def Obligations.FramingOfTransactions : Prop :=
  ∀ (i : Instr) (a v : Byte) (s t : State), s.params.backend = .real →
    (i = .readRegister a ∨ i = .writeRegister a v ∨ i = .readBuffer) → exec i s = .next t →
    ∃ inner, t.trace = s.trace ++ .cs false :: inner ++ [.cs true] ∧ ∀ b, .cs b ∉ inner

/-! ### The Device Controller -/

/-- NEW with a valid id and a chip whose first burst byte is 0x80 completes: the lines are bound, the eleven writes and
the burst are on the trace, `BUF` holds the burst, `DEV` is Ready, everything else unchanged (R171 to R176). -/
def Obligations.NewBecomesReady : Prop :=
  ∀ (id : Byte) (s : State), s.params.backend = .real →
    s.seq = .idle → s.fault = none → s.dev = .uninitialized → id ∉ s.liveIds →
    id ∈ s.params.validIds → s.received 23 = 0x80#8 →
    exec (.new id) s = .next { s.advance 280 with
      di := false
      cs := true
      clk := s.params.clkInit
      tx := 0x00#8
      rx := s.received 34
      buf := s.capture 23
      id := id
      bound := true
      dev := .ready
      log := (newEvents s.params id s.received).reverse ++ s.log }

/-- NEW with a valid id whose burst does not begin with 0x80 takes `PresenceError`: `FAULT_INFO` is that byte, `DEV`
stays Uninitialized, the block is idle and still owns the lines, at `CS` high, `CLK_INIT`, `DI` low; the trace is that of
a successful NEW (R202, R205, R176). -/
def Obligations.NewTakesPresenceError : Prop :=
  ∀ (id : Byte) (s : State), s.params.backend = .real →
    s.seq = .idle → s.fault = none → s.dev = .uninitialized → id ∉ s.liveIds →
    id ∈ s.params.validIds → s.received 23 ≠ 0x80#8 →
    exec (.new id) s = .next { s.advance 280 with
      di := false
      cs := true
      clk := s.params.clkInit
      tx := 0x00#8
      rx := s.received 34
      buf := s.capture 23
      id := id
      bound := true
      fault := some .presenceError
      faultInfo := s.received 23
      log := (newEvents s.params id s.received).reverse ++ s.log }

/-- NEW with an id outside `VALID_IDS` takes `ConfigError` before anything is bound and before any line event: only
`FAULT` and `FAULT_INFO` change, whatever the chip would answer (R201, R206); with the stand-in there is no such error. -/
def Obligations.NewTakesConfigError : Prop :=
  ∀ (id : Byte) (s : State), s.seq = .idle → s.fault = none → s.dev = .uninitialized → id ∉ s.liveIds →
    id ∉ s.params.validIds →
    (s.params.backend = .real →
      exec (.new id) s = .next { s with fault := some .configError, faultInfo := id }) ∧
    (s.params.backend = .stub → ∃ t, exec (.new id) s = .next t ∧ t.fault = none)

/-- UPDATE on a constructed instance with the real backend completes: five read transactions, their address bytes written
out, in the order proximity MSB, LSB, frequency MSB, MID, LSB; `PROX = {T[0], T[1]}` and
`FREQ = {0x00, T[2], T[3], T[4]}`; everything else unchanged (R99, R177 to R179). -/
def Obligations.UpdateNextState : Prop :=
  ∀ s : State, s.params.backend = .real → s.seq = .idle → s.fault = none → s.dev = .ready →
    exec .update s = .next { s.advance 80 with
      di := false
      cs := true
      tx := 0x00#8
      rx := s.received 9
      tmp := #v[s.received 1, s.received 3, s.received 5, s.received 7, s.received 9]
      prox := s.received 1 ++ s.received 3
      freq := 0x00#8 ++ s.received 5 ++ s.received 7 ++ s.received 9
      log := (registerEvents s.clk (s.params.aProxMsb ||| 0x80#8) 0x00#8 (s.received 0) (s.received 1)
        ++ registerEvents s.clk (s.params.aProxLsb ||| 0x80#8) 0x00#8 (s.received 2) (s.received 3)
        ++ registerEvents s.clk (s.params.aFreqMsb ||| 0x80#8) 0x00#8 (s.received 4) (s.received 5)
        ++ registerEvents s.clk (s.params.aFreqMid ||| 0x80#8) 0x00#8 (s.received 6) (s.received 7)
        ++ registerEvents s.clk (s.params.aFreqLsb ||| 0x80#8) 0x00#8 (s.received 8) (s.received 9)).reverse
        ++ s.log }

/-- Every proximity and every 24-bit frequency can be read by UPDATE, for some answers of the chip: the five bytes are
not bound to each other (R68, R185). -/
def Obligations.EveryReadingCanOccur : Prop :=
  ∀ (s : State) (p : Half) (f : BitVec 24), s.params.backend = .real → s.seq = .idle → s.fault = none →
    s.dev = .ready → ∃ samples t, exec .update { s with samples := samples } = .next t ∧
      t.prox = p ∧ t.freq = 0x00#8 ++ f

/-- GET_DATA and GET_FREQUENCY on a constructed instance complete: they return `PROX` and `FREQ` and change nothing
(R180, R181). -/
def Obligations.GettersReturnCachedReadings : Prop :=
  ∀ s : State, s.params.backend = .real → s.seq = .idle → s.fault = none → s.dev = .ready →
    exec .getData s = .next { s with returned := .data s.prox :: s.returned } ∧
    exec .getFrequency s = .next { s with returned := .frequency s.freq :: s.returned }

/-- Any list of getters without an UPDATE between completes, each GET_DATA in it returns one value and each GET_FREQUENCY
one value, in whatever order they stand, and nothing is added to the trace or changed (R182); the values are `PROX` and
`FREQ` with the real backend, zero with the stand-in (R180, R181, R186). -/
def Obligations.GettersAreIdempotent : Prop :=
  ∀ s : State, s.seq = .idle → s.fault = none → s.dev = .ready → ∃ (v : Half) (w : Word),
    (s.params.backend = .real → v = s.prox ∧ w = s.freq) ∧
    (s.params.backend = .stub → v = 0x0000#16 ∧ w = 0x00000000#32) ∧
    ∀ l : List Instr, (∀ i ∈ l, i = .getData ∨ i = .getFrequency) →
      execAll l s = .next { s with
        returned := (l.map fun i => if i = .getData then Result.data v else Result.frequency w).reverse ++ s.returned }

/-- DESTROY with the real backend completes: the lines are released, `DEV` is Uninitialized, `PROX` and `FREQ` are zero,
no frame is sent, everything else unchanged, and a NEW may follow; with the stand-in only `DEV` is written (R183, R186,
R47). That the fields of the three lines keep their value after the release, where nothing drives the lines, is the
model's choice (log 20). -/
def Obligations.DestroyNextState : Prop :=
  ∀ s : State, s.seq = .idle → s.fault = none → s.dev = .ready →
    (s.params.backend = .real → exec .destroy s = .next { s with
      bound := false, dev := .uninitialized, prox := 0x0000#16, freq := 0x00000000#32, log := .release :: s.log }) ∧
    (s.params.backend = .stub → exec .destroy s = .next { s with dev := .uninitialized }) ∧
    ∀ t, exec .destroy s = .next t → ∀ id, id ∉ t.liveIds → t.accepts (.new id) = true

/-- The stand-in: NEW becomes Ready with no id check, no binding and no frame; UPDATE does nothing; both getters return
zero whatever the registers hold; DESTROY leaves Ready (R186). -/
def Obligations.StubCommands : Prop :=
  ∀ s : State, s.params.backend = .stub → s.seq = .idle → s.fault = none →
    (s.dev = .uninitialized → ∀ id, exec (.new id) s = .next { s with dev := .ready }) ∧
    (s.dev = .ready →
      exec .update s = .next s ∧
      exec .getData s = .next { s with returned := .data 0x0000#16 :: s.returned } ∧
      exec .getFrequency s = .next { s with returned := .frequency 0x00000000#32 :: s.returned } ∧
      exec .destroy s = .next { s with dev := .uninitialized })

/-- Under the stand-in an internal operation asked for directly returns zero and does nothing. The model's reading of
"all operations return zero" (log 10), not a rule of the spec. -/
def Obligations.StubInternalOperations : Prop :=
  ∀ (a v : Byte) (s : State), s.params.backend = .stub →
    exec (.transfer a) s = .next { s with returned := .byte 0x00#8 :: s.returned } ∧
    exec (.readRegister a) s = .next { s with returned := .byte 0x00#8 :: s.returned } ∧
    exec (.writeRegister a v) s = .next { s with returned := .byte 0x00#8 :: s.returned } ∧
    exec .readBuffer s = .next s

/-- With the stand-in no operation writes `BOUND`, `FAULT`, `PROX`, `FREQ`, `BUF`, `T`, `TX` or `RX`, and the trace does
not grow (R186; for the internal operations log 10). -/
def Obligations.StubWritesOnlyDev : Prop :=
  ∀ (i : Instr) (s t : State), s.params.backend = .stub → exec i s = .next t →
    t = { s with dev := t.dev, returned := t.returned } ∧ t.trace = s.trace

/-- A command that R170 does not accept changes nothing: any command while the block is busy or `FAULT` is set, NEW on a
constructed instance, the others before construction; and NEW with an id another live instance
holds (R213, D20; the list of those ids is the model's, log 14). -/
def Obligations.RefusedCommandChangesNothing : Prop :=
  (∀ (i : Instr) (s : State), i.isCommand = true → (s.seq ≠ .idle ∨ s.fault ≠ none) → exec i s = .next s) ∧
  (∀ (id : Byte) (s : State), s.dev = .ready → exec (.new id) s = .next s) ∧
  (∀ (i : Instr) (s : State), i = .update ∨ i = .getData ∨ i = .getFrequency ∨ i = .destroy →
    s.dev = .uninitialized → exec i s = .next s) ∧
  (∀ (id : Byte) (s : State), s.params.backend = .real → id ∈ s.liveIds → exec (.new id) s = .next s)

/-! ### Rules of the whole machine -/

/-- Each register is changed only by the operations R47 lists as its writers. Every operation but NEW leaves `CLK` at the
level it found (R23, R123), and the build is fixed (R40). Every operation run as a whole leaves `SEQ` as it found it: a
command runs until its frame is popped (R37, log 7), an internal operation asked for directly does not move it (log 9).
The model's choices are also the requests (log 8), the ids other instances hold (R213, log 14), and that DESTROY leaves
the fields of the three lines (log 20). -/
def Obligations.RegistersChangedOnlyByTheirWriters : Prop :=
  ∀ (i : Instr) (s t : State), exec i s = .next t →
    (t.di ≠ s.di ∨ t.clk ≠ s.clk ∨ t.tx ≠ s.tx ∨ t.rx ≠ s.rx →
      i ≠ .getData ∧ i ≠ .getFrequency ∧ i ≠ .destroy) ∧
    (t.cs ≠ s.cs → i ≠ .getData ∧ i ≠ .getFrequency ∧ i ≠ .destroy ∧ ∀ b, i ≠ .transfer b) ∧
    (t.tmp ≠ s.tmp → i = .update) ∧
    (t.buf ≠ s.buf → i = .readBuffer ∨ ∃ id, i = .new id) ∧
    (t.prox ≠ s.prox ∨ t.freq ≠ s.freq → i = .update ∨ i = .destroy) ∧
    (t.dev ≠ s.dev ∨ t.bound ≠ s.bound → i = .destroy ∨ ∃ id, i = .new id) ∧
    (t.fault ≠ s.fault ∨ t.faultInfo ≠ s.faultInfo ∨ t.id ≠ s.id → ∃ id, i = .new id) ∧
    (t.clk ≠ s.clk → ∃ id, i = .new id) ∧
    t.seq = s.seq ∧ t.params = s.params ∧ t.pending = s.pending ∧ t.liveIds = s.liveIds

/-- The only way into Ready with the real backend is a NEW whose id is valid and whose burst began with 0x80: no other
operation, and no other step, be the block idle or inside any command. A step is the self-check of a running NEW, which
then does nothing else, or a NEW run as a whole (R174, R175). That one step can run a whole NEW is the model's choice
(log 7). -/
def Obligations.ReadyOnlyThroughSelfCheck : Prop :=
  (∀ (i : Instr) (s t : State), s.params.backend = .real → exec i s = .next t → s.dev ≠ .ready → t.dev = .ready →
    ∃ id, i = .new id ∧ id ∈ s.params.validIds ∧ t.buf[0] = 0x80#8 ∧ t.bound = true ∧ t.fault = none) ∧
  (∀ s t : State, s.params.backend = .real → step s = .next t → s.dev ≠ .ready → t.dev = .ready →
    (s.seq = .newSelfCheck ∧ s.buf[0] = 0x80#8 ∧ t = { s with dev := .ready, seq := .idle }) ∨
    (s.seq = .idle ∧ t.buf[0] = 0x80#8 ∧ t.bound = true ∧ t.fault = none ∧
      ∃ f bytes rest id, s.pending = .op f bytes :: rest ∧ decode f bytes = .ok (.new id) ∧ id ∈ s.params.validIds))

/-- Once `FAULT` is set it stays set but for a reset, in every state, also inside a command; and an idle block with
`FAULT` set answers a command of the host, issued on the port or asked for as a whole, by taking it off and changing
nothing (R208, R170). That commands can be asked for as a whole (log 7), how such a word is laid out (log 12), and that a
refused command is taken off (log 5, log 8) are the model's choice, and so is the moment of a reset (log 21). -/
def Obligations.FaultIsSticky : Prop :=
  (∀ s t : State, step s = .next t → s.fault ≠ none → t.fault = none → ∃ rest, s.pending = .reset :: rest) ∧
  (∀ (s : State) (bytes : List Byte) (rest : List Request) (i : Instr), s.fault ≠ none → s.seq = .idle →
    s.pending = .op .H bytes :: rest → decode .H bytes = .ok i → step s = .next { s with pending := rest }) ∧
  (∀ (s : State) (code : BitVec 3) (id : Byte) (rest : List Request), s.fault ≠ none → s.seq = .idle →
    s.pending = .command code id :: rest → step s = .next { s with pending := rest })

/-- Line events, toggles, samples, settle waits and pads of every operation, as R249 counts them, in the decided build;
none of a refused command (R170) nor of a command under the stand-in (R186), and by log 10 none of an internal operation
asked for directly under the stand-in. -/
def Obligations.EventCounts : Prop :=
  ∀ (i : Instr) (s t : State), s.params.burstSettleUs = 0 → s.params.burstPad = false → exec i s = .next t →
    ∃ ev, t.trace = s.trace ++ ev ∧ eventCounts ev = s.countsOf i

/-- No sample changes the order or number of line events of the operation that takes it (R37): two runs that differ only
in the environment's answers leave the same events but for the levels sampled. -/
def Obligations.SamplesDoNotSteerTheTrace : Prop :=
  ∀ (i : Instr) (s t u : State) (samples : List Level) (drawn : Nat),
    exec i s = .next t → exec i { s with samples := samples, drawn := drawn } = .next u →
    t.trace.map LineEvent.skeleton = u.trace.map LineEvent.skeleton

/-- The reset event, in any state: the readings zero, Uninitialized, no error, no line owned, idle; nothing is sent to
the chip; the build, the requests still to come and the environment are not touched (R230, R45). And no other event
clears `FAULT`. That the record and the environment survive, and that no event is added, is the model's choice (log 13),
and so is the moment: the step at which the reset is the oldest request (log 21). -/
def Obligations.ResetEvent : Prop :=
  (∀ (s : State) (rest : List Request), s.pending = .reset :: rest → ∃ t, step s = .next t ∧
    t.prox = 0x0000#16 ∧ t.freq = 0x00000000#32 ∧ t.dev = .uninitialized ∧ t.fault = none ∧ t.bound = false ∧
    t.seq = .idle ∧ t.linesOut = none ∧ t.trace = s.trace ∧ t.returned = s.returned ∧ t.params = s.params ∧
    t.pending = rest ∧ t.samples = s.samples ∧ t.drawn = s.drawn ∧ t.liveIds = s.liveIds) ∧
  (∀ s t : State, step s = .next t → s.fault ≠ none → t.fault = none → ∃ rest, s.pending = .reset :: rest)

/-- The state after reset: what R45 gives, no line driven, the status output all zero but `FAULT_INFO`, not busy, and the
decided parameters of D2 and D6. -/
def Obligations.ResetState : Prop :=
  State.reset.prox = 0x0000#16 ∧ State.reset.freq = 0x00000000#32 ∧ State.reset.dev = .uninitialized ∧
  State.reset.fault = none ∧ State.reset.bound = false ∧ State.reset.seq = .idle ∧ State.reset.linesOut = none ∧
  State.reset.status.1 = 0#1 ∧ State.reset.status.2.1 = 0#2 ∧ State.reset.busy = false ∧ State.reset.trace = [] ∧
  State.reset.params.diInit = false ∧ State.reset.params.csInit = true ∧ State.reset.params.clkInit = false ∧
  State.reset.params.burstSettleUs = 0 ∧ State.reset.params.burstPad = false ∧ 0 < State.reset.params.tPad

/-- The codes of the status output: 0 and 1 for `DEV`; 0, 1, 2 for `FAULT`, and never 3 (R31, R32). -/
def Obligations.StatusCodes : Prop :=
  DevState.uninitialized.code = 0#1 ∧ DevState.ready.code = 1#1 ∧ faultCode none = 0#2 ∧
  faultCode (some .configError) = 1#2 ∧ faultCode (some .presenceError) = 2#2 ∧ ∀ f, faultCode f ≠ 3#2

/-! ### The step -/

/-- An idle block takes its oldest request: a command of the host port is begun, its frame pushed if it is accepted (R37,
R170), where the stand-in's UPDATE has no frame and leaves the block idle (R186); the bytes of an operation asked for as
a whole run the operation they decode to, and so does a word placed by `withFetchWord`. That there are requests of the second kind is the model's choice (log 7, log 8). -/
def Obligations.StepRunsTheDecodedOperation : Prop :=
  (∀ (s : State) (code : BitVec 3) (id : Byte) (rest : List Request) (i : Instr), s.seq = .idle →
    s.pending = .command code id :: rest → decode .H [code.setWidth 8, id] = .ok i →
    step s = .next (if s.accepts i then { s with pending := rest, seq := startFrame i s }
      else { s with pending := rest })) ∧
  (∀ (s : State) (f : Format) (bytes : List Byte) (rest : List Request) (i : Instr), s.seq = .idle →
    s.pending = .op f bytes :: rest → decode f bytes = .ok i → step s = exec i { s with pending := rest }) ∧
  (∀ (s : State) (nbits w : Nat) (i : Instr), decodeTableWord nbits w = some i →
    step (s.withFetchWord nbits w) = exec i { s with seq := .idle })

/-- A reserved host code is refused: the command leaves the port and nothing else changes, no line event among it (R103);
the same for a command word asked for as a whole (log 7, log 12). That a refused command leaves the port is the model's
choice (log 5, log 8). -/
def Obligations.ReservedCodesAreRefused : Prop :=
  (∀ (s : State) (code : BitVec 3) (id : Byte) (rest : List Request), code = 0b101#3 ∨ code = 0b110#3 ∨ code = 0b111#3 →
    s.seq = .idle → s.pending = .command code id :: rest → step s = .next { s with pending := rest }) ∧
  (∀ (s : State) (c id : Byte) (rest : List Request), c = 0b101#8 ∨ c = 0b110#8 ∨ c = 0b111#8 → s.seq = .idle →
    s.pending = .op .H [c, id] :: rest → step s = .next { s with pending := rest })

/-- Without a request an idle block waits (R231, R187); a busy one takes the next step of its command, whatever command
waits (R170, R37). -/
def Obligations.IdleWaitsAndBusyRuns : Prop :=
  (∀ s : State, s.seq = .idle → s.pending = [] → step s = .next s) ∧
  (∀ s : State, s.seq ≠ .idle → (∀ rest, s.pending ≠ .reset :: rest) → step s = .next (seqStep s))

/-! ### Invariants -/

/-- The invariants of R46 hold at reset, for either backend, and the trace is well framed. -/
def Obligations.IdleInvariantsAtReset : Prop :=
  State.reset.idleInv ∧ State.reset.blockInv ∧ State.reset.wellFramed = true ∧ State.reset.framed

/-- The invariants of R46 are kept by every step of an idle block whose program is run as wholes, and the block is idle
again: `FREQ[31:24] = 0`; with the real backend, bound lines rest at `CS` high and `CLK_INIT`, Ready means bound, no error
and `BUF[0] = 0x80`, `ConfigError` means unbound, `PresenceError` means bound with `FAULT_INFO = BUF[0] != 0x80`; with the
stand-in nothing is bound, no error is recorded and the readings are zero. That such a step leaves the block idle is the
model's grain (log 7), no rule; BlockInvariantsKept is about R9's steps. -/
def Obligations.IdleInvariantsKept : Prop :=
  ∀ s t : State, s.idleInv → step s = .next t → t.idleInv

/-- The invariants of R46, with what each position of a command adds to them, are kept by every step of a block that runs
a host's program, idle or inside any command, through resets too: whenever the block is idle they are R46's; inside a
command the lines are at the levels of the position, and `DEV`, `FAULT`, `BOUND` and `BUF[0]` are what the command found or
has made of them (R46, R36, R37, R22, R23). The positions are the model's (log 17), and so is the moment of a reset
(log 21). -/
def Obligations.BlockInvariantsKept : Prop :=
  ∀ s t : State, s.blockInv → step s = .next t → t.blockInv

/-- `FREQ[31:24] = 0x00` is kept by every step from every state, also inside a command (R30). -/
def Obligations.FrequencyTopByteStaysZero : Prop :=
  ∀ s t : State, s.freq.extractLsb 31 24 = 0x00#8 → step s = .next t → t.freq.extractLsb 31 24 = 0x00#8

/-- Every step of an idle block whose program is run as wholes leaves a trace of whole legal frames: sixteen or 104 bits,
a read's data byte 0x00, a burst exactly its bit string, no toggle outside a frame, `DI` driven only before the first
toggle of a slot, the sample between the two toggles, no second `CS=0` in a frame (R104, R124, R143). The block is idle
again and its remaining requests are of the same kind, which is the model's grain (log 7). -/
def Obligations.TracesStayWellFramed : Prop :=
  ∀ s t : State, s.seq = .idle → s.wholeOnly = true → s.wellFramed = true → step s = .next t →
    t.wellFramed = true ∧ t.seq = .idle ∧ t.wholeOnly = true

/-- The same at R9's grain: in every state of a block that runs a host's program the trace is whole legal frames and then
as much of a legal frame as the block's position says; every step keeps that, but for a reset in the middle of a command,
which leaves its frame open. So no step of any command makes a line event that R104 says a chip never sees. -/
def Obligations.FramesKeptInsideCommands : Prop :=
  ∀ s t : State, s.framed → s.hostOnly = true → (s.seq = .idle ∨ ∀ rest, s.pending ≠ .reset :: rest) →
    step s = .next t → t.framed ∧ t.hostOnly = true

/-! ### The sequencer -/

/-- Running a host command position by position (R36, R37) ends in the state that `exec` gives in one step. How the
positions are written is the model's (log 17). -/
def Obligations.SequencerRefinesExec : Prop :=
  ∀ (i : Instr) (s : State), i.isCommand = true → s.seq = .idle →
    exec i s = .next (seqRun 2093 (beginCommand i s))

/-- From any position of any command the sequencer is idle after at most 2093 of its steps, whatever the samples are
(R250; the number counts the model's positions, log 17). -/
def Obligations.EveryCommandEnds : Prop :=
  ∀ s : State, (seqRun 2093 s).seq = .idle

/-- A step of the sequencer performs at most one line event (R9), and returns a value only at a getter's position. -/
def Obligations.SequencerStepIsOneEvent : Prop :=
  ∀ s : State, ((seqStep s).log = s.log ∨ ∃ e, (seqStep s).log = e :: s.log) ∧
    ((seqStep s).returned = s.returned ∨ ∃ r w, s.seq = .get w ∧ (seqStep s).returned = r :: s.returned)

/-- A step of the sequencer, its own position aside, is nothing, one line primitive (R12), one register update or one
value returned (R9), with these exceptions: the binding, "one step" in D3; both readings, "written together" in R178; and,
by the model's choice (log 17), the error with its information, which R204 lists as separate writes. Also log 17's are
that `SEQ` moves in the same step, and that a check (the id, the self-check) and the write it leads to are one step. -/
def Obligations.SequencerStepIsAtomic : Prop :=
  ∀ s : State, ∃ t, AtomicStep s t ∧ seqStep s = { t with seq := (seqStep s).seq }

/-- A host command is a finite run of steps (R9, R37): from an idle block with a command on its port and no reset waiting,
there is a number of steps, at most 2094, after which the machine is in the state that `exec` gives, and at every step
before it the block is busy. The number counts the model's positions (log 17); a reset right behind the command would act
at its second step (log 21). -/
def Obligations.PortCommandIsAFiniteRunOfSteps : Prop :=
  ∀ (i : Instr) (code : BitVec 3) (id : Byte) (rest : List Request) (s : State), s.seq = .idle →
    s.pending = .command code id :: rest → (∀ r, rest ≠ .reset :: r) → decode .H [code.setWidth 8, id] = .ok i →
    ∃ n, 1 ≤ n ∧ n ≤ 2094 ∧ s.run n = exec i { s with pending := rest } ∧
      ∀ m, 0 < m → m < n → ∃ t, s.run m = .next t ∧ t.busy = true

/-! ### Under the reference responder, a named premise and no fact about the chip (D18, log 15) -/

/-- If the samples of a READ_REGISTER are the responder's, the byte returned is its register `a & 0x7F`, and its registers
are unchanged; WRITE_REGISTER returns 0x00 and puts `v` into that register. -/
def Obligations.ResponderRegisterAccess : Prop :=
  ∀ (a v : Byte) (s t : State) (ev : List LineEvent) (r r' : Responder), s.params.backend = .real →
    t.trace = s.trace ++ ev → r.follows ev = some r' →
    (exec (.readRegister a) s = .next t →
      t.returned = .byte (r.reg.read (a &&& 0x7F#8).toNat) :: s.returned ∧ r'.reg = r.reg) ∧
    (exec (.writeRegister a v) s = .next t →
      t.returned = .byte 0x00#8 :: s.returned ∧ r'.reg = r.reg.write (a &&& 0x7F#8).toNat v)

/-- If the samples of a READ_BUFFER are the responder's, `BUF[j]` is its register j. -/
def Obligations.ResponderBurst : Prop :=
  ∀ (s t : State) (ev : List LineEvent) (r r' : Responder), s.params.backend = .real →
    exec .readBuffer s = .next t → t.trace = s.trace ++ ev → r.follows ev = some r' →
    (∀ j : Fin 12, t.buf[j] = r.reg.read j.val) ∧ r'.reg = r.reg

/-- A present chip, the responder with 0x80 in its register 0x00, which no initialisation write addresses, makes NEW
succeed. -/
def Obligations.PresentChipPassesSelfCheck : Prop :=
  ∀ (id : Byte) (s t : State) (ev : List LineEvent) (r r' : Responder), s.params.backend = .real →
    s.seq = .idle → s.fault = none → s.dev = .uninitialized → id ∉ s.liveIds → id ∈ s.params.validIds →
    (∀ e ∈ s.params.initSeq.toList, e.1 &&& 0x7F#8 ≠ 0x00#8) → r.reg.wf = true → r.reg.read 0 = 0x80#8 →
    exec (.new id) s = .next t → t.trace = s.trace ++ ev → r.follows ev = some r' →
    t.dev = .ready ∧ t.fault = none

/-- The responder's registers keep their canonical form over any events. -/
def Obligations.ResponderMemoryStaysCanonical : Prop :=
  ∀ (r r' : Responder) (ev : List LineEvent), r.reg.wf = true → r.follows ev = some r' → r'.reg.wf = true
end

