-- ==== Sys2Proof/Laws/Flags.lean ====
section
/-! SUPPORT. When a command is accepted, in the terms of R170. -/

namespace Sys2Proof.Machine

theorem acceptsOnReady_iff (s : State) :
    s.acceptsOnReady = true ↔ s.seq = .idle ∧ s.fault = none ∧ s.dev = .ready := by
  simp [State.acceptsOnReady, and_assoc]

/-- NEW: also R213's exclusive lines, which only the real backend has. -/
theorem acceptsNew_iff (s : State) (id : Byte) :
    s.acceptsNew id = true ↔ s.seq = .idle ∧ s.fault = none ∧ s.dev = .uninitialized ∧
      (id ∉ s.liveIds ∨ s.params.backend ≠ .real) := by
  simp [State.acceptsNew, State.heldElsewhere, and_assoc]

end Sys2Proof.Machine
end

