-- ==== Sys2Proof/Laws/Memory.lean ====
section
/-! SUPPORT. The canonical form of a register space is kept by every write, and a read after a write answers as a
register does. -/

namespace Sys2Proof.Machine

theorem Memory.wf_nil : Memory.wf [] = true := by decide

/-- A canonical space, cell by cell. -/
theorem Memory.wf_cons (c : Host.Cell) (m : Memory) : Memory.wf (c :: m) = true ↔
    (∀ d ∈ m, c.1 < d.1) ∧ c.1 < 128 ∧ c.2 ≠ Memory.unlisted ∧ Memory.wf m = true := by
  simp only [Memory.wf, List.pairwise_cons, List.all_cons, Bool.and_eq_true, decide_eq_true_eq, bne_iff_ne]
  tauto

/-- An address below every listed one is unlisted. -/
theorem Memory.read_below (m : Memory) (a : Nat) (h : ∀ d ∈ m, a < d.1) : m.read a = Memory.unlisted := by
  induction m with
  | nil => rfl
  | cons c m ih =>
    have hc := h c (by simp)
    obtain ⟨b, w⟩ := c
    rw [Memory.read, if_neg (by simp at hc; omega)]
    exact ih fun d hd => h d (by simp [hd])

/-- A write lists no address but its own and those listed before. -/
theorem Memory.mem_write (m : Memory) (a : Nat) (v : Byte) (d : Host.Cell) (h : d ∈ m.write a v) :
    d.1 = a ∨ d ∈ m := by
  induction m with
  | nil =>
    rw [Memory.write] at h
    split at h <;> simp_all
  | cons c m ih =>
    obtain ⟨b, w⟩ := c
    rw [Memory.write] at h
    split at h
    · split at h <;> simp_all
      rcases h with rfl | h <;> simp_all
    · split at h
      · split at h <;> simp_all
        rcases h with rfl | h <;> simp_all
      · simp only [List.mem_cons] at h ⊢
        rcases h with h | h
        · exact .inr (.inl h)
        · exact (ih h).imp id .inr

/-- A write keeps the canonical form. -/
theorem Memory.write_wf (m : Memory) (hm : m.wf = true) (a : Nat) (ha : a < 128) (v : Byte) :
    (m.write a v).wf = true := by
  induction m with
  | nil =>
    rw [Memory.write]
    split
    · exact hm
    · exact (Memory.wf_cons _ _).2 ⟨by simp, ha, ‹_›, Memory.wf_nil⟩
  | cons c m ih =>
    obtain ⟨b, w⟩ := c
    obtain ⟨h₁, h₂, h₃, h₄⟩ := (Memory.wf_cons _ _).1 hm
    rw [Memory.write]
    split
    · split
      · exact hm
      · refine (Memory.wf_cons _ _).2 ⟨fun d hd => ?_, ha, ‹_›, hm⟩
        rcases List.mem_cons.1 hd with rfl | hd
        · assumption
        · exact Nat.lt_trans ‹a < b› (h₁ d hd)
    · split
      · subst a
        split
        · exact h₄
        · exact (Memory.wf_cons _ _).2 ⟨h₁, ha, ‹_›, h₄⟩
      · refine (Memory.wf_cons _ _).2 ⟨fun d hd => ?_, h₂, h₃, ih h₄⟩
        rcases Memory.mem_write m a v d hd with h | h
        · simp only [h]; omega
        · exact h₁ d h

/-- A read after a write: the byte written at its address, the old byte elsewhere. -/
theorem Memory.read_write (m : Memory) (hm : m.wf = true) (a b : Nat) (v : Byte) :
    (m.write a v).read b = if b = a then v else m.read b := by
  induction m with
  | nil =>
    rw [Memory.write]
    by_cases hv : v = Memory.unlisted
    · simp [hv, Memory.read]
    · simp [hv, Memory.read, eq_comm]
  | cons c m ih =>
    obtain ⟨k, w⟩ := c
    obtain ⟨h₁, -, -, h₄⟩ := (Memory.wf_cons _ _).1 hm
    have below (x : Nat) (hx : x ≤ k) : Memory.read m x = Memory.unlisted :=
      Memory.read_below m x fun d hd => Nat.lt_of_le_of_lt hx (h₁ d hd)
    rw [Memory.write]
    by_cases hak : a < k
    · by_cases hv : v = Memory.unlisted
      · by_cases hb : b = a
        · have := below a (by omega)
          simp [hak, hv, hb, Memory.read, show k ≠ a by omega, this]
        · simp [hak, hv, hb]
      · simp [hak, hv, Memory.read, eq_comm]
    · by_cases hk : a = k
      · subst hk
        by_cases hv : v = Memory.unlisted
        · by_cases hb : b = a
          · simp [hv, hb, below a le_rfl]
          · simp [hv, hb, Memory.read, Ne.symm hb]
        · by_cases hb : b = a
          · simp [hv, hb, Memory.read]
          · simp [hv, hb, Memory.read, Ne.symm hb]
      · rw [if_neg hak, if_neg hk, Memory.read, ih h₄, Memory.read]
        by_cases hb : b = a
        · simp [hb, show k ≠ a by omega]
        · simp [hb]
end Sys2Proof.Machine
end

