-- ==== Sys2Proof/Laws/Operands.lean ====
section
/-! SUPPORT. The composition of the readings is concatenation. -/

namespace Sys2Proof.Machine

/-- `PROX = {T[0], T[1]}` (R99, R178). -/
theorem composeProx_eq (t : Vector Byte 5) : composeProx t = t[0] ++ t[1] := by
  refine BitVec.eq_of_toNat_eq ?_
  have h0 := t[0].isLt
  have h1 := t[1].isLt
  rw [composeProx, BitVec.toNat_or, BitVec.toNat_shiftLeft, BitVec.toNat_setWidth, BitVec.toNat_setWidth,
    BitVec.toNat_append, Nat.mod_eq_of_lt (show t[0].toNat < 2 ^ 16 by omega),
    Nat.mod_eq_of_lt (show t[1].toNat < 2 ^ 16 by omega), Nat.mod_eq_of_lt]
  rw [Nat.shiftLeft_eq]; omega

/-- `FREQ = {0x00, T[2], T[3], T[4]}` (R99, R178). -/
theorem composeFreq_eq (t : Vector Byte 5) : composeFreq t = 0x00#8 ++ t[2] ++ t[3] ++ t[4] := by
  refine BitVec.eq_of_toNat_eq ?_
  have h2 := t[2].isLt
  have h3 := t[3].isLt
  have h4 := t[4].isLt
  simp only [composeFreq, BitVec.toNat_or, BitVec.toNat_shiftLeft, BitVec.toNat_setWidth, BitVec.toNat_append]
  rw [Nat.mod_eq_of_lt (show t[2].toNat < 2 ^ 32 by omega), Nat.mod_eq_of_lt (show t[3].toNat < 2 ^ 32 by omega),
    Nat.mod_eq_of_lt (show t[4].toNat < 2 ^ 32 by omega),
    Nat.mod_eq_of_lt (show t[2].toNat <<< 16 < 2 ^ 32 by rw [Nat.shiftLeft_eq]; omega),
    Nat.mod_eq_of_lt (show t[3].toNat <<< 8 < 2 ^ 32 by rw [Nat.shiftLeft_eq]; omega)]
  simp [Nat.shiftLeft_or_distrib, ← Nat.shiftLeft_add]

end Sys2Proof.Machine
end

