-- ==== Sys2Proof/Laws/State.lean ====
section
/-! SUPPORT. What each update of the state leaves in each field, true by unfolding, so that no later proof unfolds an
update. -/

namespace Sys2Proof.Machine

variable (s : State)

@[simp] theorem emit_di (e : LineEvent) : (s.emit e).di = s.di := rfl
@[simp] theorem emit_cs (e : LineEvent) : (s.emit e).cs = s.cs := rfl
@[simp] theorem emit_clk (e : LineEvent) : (s.emit e).clk = s.clk := rfl
@[simp] theorem emit_tx (e : LineEvent) : (s.emit e).tx = s.tx := rfl
@[simp] theorem emit_rx (e : LineEvent) : (s.emit e).rx = s.rx := rfl
@[simp] theorem emit_tmp (e : LineEvent) : (s.emit e).tmp = s.tmp := rfl
@[simp] theorem emit_buf (e : LineEvent) : (s.emit e).buf = s.buf := rfl
@[simp] theorem emit_prox (e : LineEvent) : (s.emit e).prox = s.prox := rfl
@[simp] theorem emit_freq (e : LineEvent) : (s.emit e).freq = s.freq := rfl
@[simp] theorem emit_dev (e : LineEvent) : (s.emit e).dev = s.dev := rfl
@[simp] theorem emit_fault (e : LineEvent) : (s.emit e).fault = s.fault := rfl
@[simp] theorem emit_faultInfo (e : LineEvent) : (s.emit e).faultInfo = s.faultInfo := rfl
@[simp] theorem emit_id (e : LineEvent) : (s.emit e).id = s.id := rfl
@[simp] theorem emit_bound (e : LineEvent) : (s.emit e).bound = s.bound := rfl
@[simp] theorem emit_seq (e : LineEvent) : (s.emit e).seq = s.seq := rfl
@[simp] theorem emit_params (e : LineEvent) : (s.emit e).params = s.params := rfl
@[simp] theorem emit_pending (e : LineEvent) : (s.emit e).pending = s.pending := rfl
@[simp] theorem emit_samples (e : LineEvent) : (s.emit e).samples = s.samples := rfl
@[simp] theorem emit_drawn (e : LineEvent) : (s.emit e).drawn = s.drawn := rfl
@[simp] theorem emit_liveIds (e : LineEvent) : (s.emit e).liveIds = s.liveIds := rfl
@[simp] theorem emit_log (e : LineEvent) : (s.emit e).log = e :: s.log := rfl
@[simp] theorem emit_returned (e : LineEvent) : (s.emit e).returned = s.returned := rfl

@[simp] theorem advance_di (n : Nat) : (s.advance n).di = s.di := rfl
@[simp] theorem advance_cs (n : Nat) : (s.advance n).cs = s.cs := rfl
@[simp] theorem advance_clk (n : Nat) : (s.advance n).clk = s.clk := rfl
@[simp] theorem advance_tx (n : Nat) : (s.advance n).tx = s.tx := rfl
@[simp] theorem advance_rx (n : Nat) : (s.advance n).rx = s.rx := rfl
@[simp] theorem advance_tmp (n : Nat) : (s.advance n).tmp = s.tmp := rfl
@[simp] theorem advance_buf (n : Nat) : (s.advance n).buf = s.buf := rfl
@[simp] theorem advance_prox (n : Nat) : (s.advance n).prox = s.prox := rfl
@[simp] theorem advance_freq (n : Nat) : (s.advance n).freq = s.freq := rfl
@[simp] theorem advance_dev (n : Nat) : (s.advance n).dev = s.dev := rfl
@[simp] theorem advance_fault (n : Nat) : (s.advance n).fault = s.fault := rfl
@[simp] theorem advance_faultInfo (n : Nat) : (s.advance n).faultInfo = s.faultInfo := rfl
@[simp] theorem advance_id (n : Nat) : (s.advance n).id = s.id := rfl
@[simp] theorem advance_bound (n : Nat) : (s.advance n).bound = s.bound := rfl
@[simp] theorem advance_seq (n : Nat) : (s.advance n).seq = s.seq := rfl
@[simp] theorem advance_params (n : Nat) : (s.advance n).params = s.params := rfl
@[simp] theorem advance_pending (n : Nat) : (s.advance n).pending = s.pending := rfl
@[simp] theorem advance_samples (n : Nat) : (s.advance n).samples = s.samples.drop n := rfl
@[simp] theorem advance_drawn (n : Nat) : (s.advance n).drawn = s.drawn + (n - s.samples.length) := rfl
@[simp] theorem advance_liveIds (n : Nat) : (s.advance n).liveIds = s.liveIds := rfl
@[simp] theorem advance_log (n : Nat) : (s.advance n).log = s.log := rfl
@[simp] theorem advance_returned (n : Nat) : (s.advance n).returned = s.returned := rfl

@[simp] theorem give_di (r : Result) : (s.give r).di = s.di := rfl
@[simp] theorem give_cs (r : Result) : (s.give r).cs = s.cs := rfl
@[simp] theorem give_clk (r : Result) : (s.give r).clk = s.clk := rfl
@[simp] theorem give_tx (r : Result) : (s.give r).tx = s.tx := rfl
@[simp] theorem give_rx (r : Result) : (s.give r).rx = s.rx := rfl
@[simp] theorem give_tmp (r : Result) : (s.give r).tmp = s.tmp := rfl
@[simp] theorem give_buf (r : Result) : (s.give r).buf = s.buf := rfl
@[simp] theorem give_prox (r : Result) : (s.give r).prox = s.prox := rfl
@[simp] theorem give_freq (r : Result) : (s.give r).freq = s.freq := rfl
@[simp] theorem give_dev (r : Result) : (s.give r).dev = s.dev := rfl
@[simp] theorem give_fault (r : Result) : (s.give r).fault = s.fault := rfl
@[simp] theorem give_faultInfo (r : Result) : (s.give r).faultInfo = s.faultInfo := rfl
@[simp] theorem give_id (r : Result) : (s.give r).id = s.id := rfl
@[simp] theorem give_bound (r : Result) : (s.give r).bound = s.bound := rfl
@[simp] theorem give_seq (r : Result) : (s.give r).seq = s.seq := rfl
@[simp] theorem give_params (r : Result) : (s.give r).params = s.params := rfl
@[simp] theorem give_pending (r : Result) : (s.give r).pending = s.pending := rfl
@[simp] theorem give_samples (r : Result) : (s.give r).samples = s.samples := rfl
@[simp] theorem give_drawn (r : Result) : (s.give r).drawn = s.drawn := rfl
@[simp] theorem give_liveIds (r : Result) : (s.give r).liveIds = s.liveIds := rfl
@[simp] theorem give_log (r : Result) : (s.give r).log = s.log := rfl
@[simp] theorem give_returned (r : Result) : (s.give r).returned = r :: s.returned := rfl

@[simp] theorem goto_di (q : Seq) : (s.goto q).di = s.di := rfl
@[simp] theorem goto_cs (q : Seq) : (s.goto q).cs = s.cs := rfl
@[simp] theorem goto_clk (q : Seq) : (s.goto q).clk = s.clk := rfl
@[simp] theorem goto_tx (q : Seq) : (s.goto q).tx = s.tx := rfl
@[simp] theorem goto_rx (q : Seq) : (s.goto q).rx = s.rx := rfl
@[simp] theorem goto_tmp (q : Seq) : (s.goto q).tmp = s.tmp := rfl
@[simp] theorem goto_buf (q : Seq) : (s.goto q).buf = s.buf := rfl
@[simp] theorem goto_prox (q : Seq) : (s.goto q).prox = s.prox := rfl
@[simp] theorem goto_freq (q : Seq) : (s.goto q).freq = s.freq := rfl
@[simp] theorem goto_dev (q : Seq) : (s.goto q).dev = s.dev := rfl
@[simp] theorem goto_fault (q : Seq) : (s.goto q).fault = s.fault := rfl
@[simp] theorem goto_faultInfo (q : Seq) : (s.goto q).faultInfo = s.faultInfo := rfl
@[simp] theorem goto_id (q : Seq) : (s.goto q).id = s.id := rfl
@[simp] theorem goto_bound (q : Seq) : (s.goto q).bound = s.bound := rfl
@[simp] theorem goto_seq (q : Seq) : (s.goto q).seq = q := rfl
@[simp] theorem goto_params (q : Seq) : (s.goto q).params = s.params := rfl
@[simp] theorem goto_pending (q : Seq) : (s.goto q).pending = s.pending := rfl
@[simp] theorem goto_samples (q : Seq) : (s.goto q).samples = s.samples := rfl
@[simp] theorem goto_drawn (q : Seq) : (s.goto q).drawn = s.drawn := rfl
@[simp] theorem goto_liveIds (q : Seq) : (s.goto q).liveIds = s.liveIds := rfl
@[simp] theorem goto_log (q : Seq) : (s.goto q).log = s.log := rfl
@[simp] theorem goto_returned (q : Seq) : (s.goto q).returned = s.returned := rfl

@[simp] theorem bindLines_di (i : Byte) : (bindLines i s).di = s.params.diInit := rfl
@[simp] theorem bindLines_cs (i : Byte) : (bindLines i s).cs = s.params.csInit := rfl
@[simp] theorem bindLines_clk (i : Byte) : (bindLines i s).clk = s.params.clkInit := rfl
@[simp] theorem bindLines_tx (i : Byte) : (bindLines i s).tx = s.tx := rfl
@[simp] theorem bindLines_rx (i : Byte) : (bindLines i s).rx = s.rx := rfl
@[simp] theorem bindLines_tmp (i : Byte) : (bindLines i s).tmp = s.tmp := rfl
@[simp] theorem bindLines_buf (i : Byte) : (bindLines i s).buf = s.buf := rfl
@[simp] theorem bindLines_prox (i : Byte) : (bindLines i s).prox = s.prox := rfl
@[simp] theorem bindLines_freq (i : Byte) : (bindLines i s).freq = s.freq := rfl
@[simp] theorem bindLines_dev (i : Byte) : (bindLines i s).dev = s.dev := rfl
@[simp] theorem bindLines_fault (i : Byte) : (bindLines i s).fault = s.fault := rfl
@[simp] theorem bindLines_faultInfo (i : Byte) : (bindLines i s).faultInfo = s.faultInfo := rfl
@[simp] theorem bindLines_id (i : Byte) : (bindLines i s).id = s.id := rfl
@[simp] theorem bindLines_bound (i : Byte) : (bindLines i s).bound = true := rfl
@[simp] theorem bindLines_seq (i : Byte) : (bindLines i s).seq = s.seq := rfl
@[simp] theorem bindLines_params (i : Byte) : (bindLines i s).params = s.params := rfl
@[simp] theorem bindLines_pending (i : Byte) : (bindLines i s).pending = s.pending := rfl
@[simp] theorem bindLines_samples (i : Byte) : (bindLines i s).samples = s.samples := rfl
@[simp] theorem bindLines_drawn (i : Byte) : (bindLines i s).drawn = s.drawn := rfl
@[simp] theorem bindLines_liveIds (i : Byte) : (bindLines i s).liveIds = s.liveIds := rfl
@[simp] theorem bindLines_log (i : Byte) : (bindLines i s).log = .bind i :: s.log := rfl
@[simp] theorem bindLines_returned (i : Byte) : (bindLines i s).returned = s.returned := rfl

@[simp] theorem releaseLines_di : (releaseLines s).di = s.di := rfl
@[simp] theorem releaseLines_cs : (releaseLines s).cs = s.cs := rfl
@[simp] theorem releaseLines_clk : (releaseLines s).clk = s.clk := rfl
@[simp] theorem releaseLines_tx : (releaseLines s).tx = s.tx := rfl
@[simp] theorem releaseLines_rx : (releaseLines s).rx = s.rx := rfl
@[simp] theorem releaseLines_tmp : (releaseLines s).tmp = s.tmp := rfl
@[simp] theorem releaseLines_buf : (releaseLines s).buf = s.buf := rfl
@[simp] theorem releaseLines_prox : (releaseLines s).prox = s.prox := rfl
@[simp] theorem releaseLines_freq : (releaseLines s).freq = s.freq := rfl
@[simp] theorem releaseLines_dev : (releaseLines s).dev = s.dev := rfl
@[simp] theorem releaseLines_fault : (releaseLines s).fault = s.fault := rfl
@[simp] theorem releaseLines_faultInfo : (releaseLines s).faultInfo = s.faultInfo := rfl
@[simp] theorem releaseLines_id : (releaseLines s).id = s.id := rfl
@[simp] theorem releaseLines_bound : (releaseLines s).bound = false := rfl
@[simp] theorem releaseLines_seq : (releaseLines s).seq = s.seq := rfl
@[simp] theorem releaseLines_params : (releaseLines s).params = s.params := rfl
@[simp] theorem releaseLines_pending : (releaseLines s).pending = s.pending := rfl
@[simp] theorem releaseLines_samples : (releaseLines s).samples = s.samples := rfl
@[simp] theorem releaseLines_drawn : (releaseLines s).drawn = s.drawn := rfl
@[simp] theorem releaseLines_liveIds : (releaseLines s).liveIds = s.liveIds := rfl
@[simp] theorem releaseLines_log : (releaseLines s).log = .release :: s.log := rfl
@[simp] theorem releaseLines_returned : (releaseLines s).returned = s.returned := rfl

@[simp] theorem setDI_di (b : Level) : (setDI b s).di = b := rfl
@[simp] theorem setDI_cs (b : Level) : (setDI b s).cs = s.cs := rfl
@[simp] theorem setDI_clk (b : Level) : (setDI b s).clk = s.clk := rfl
@[simp] theorem setDI_tx (b : Level) : (setDI b s).tx = s.tx := rfl
@[simp] theorem setDI_rx (b : Level) : (setDI b s).rx = s.rx := rfl
@[simp] theorem setDI_tmp (b : Level) : (setDI b s).tmp = s.tmp := rfl
@[simp] theorem setDI_buf (b : Level) : (setDI b s).buf = s.buf := rfl
@[simp] theorem setDI_prox (b : Level) : (setDI b s).prox = s.prox := rfl
@[simp] theorem setDI_freq (b : Level) : (setDI b s).freq = s.freq := rfl
@[simp] theorem setDI_dev (b : Level) : (setDI b s).dev = s.dev := rfl
@[simp] theorem setDI_fault (b : Level) : (setDI b s).fault = s.fault := rfl
@[simp] theorem setDI_faultInfo (b : Level) : (setDI b s).faultInfo = s.faultInfo := rfl
@[simp] theorem setDI_id (b : Level) : (setDI b s).id = s.id := rfl
@[simp] theorem setDI_bound (b : Level) : (setDI b s).bound = s.bound := rfl
@[simp] theorem setDI_seq (b : Level) : (setDI b s).seq = s.seq := rfl
@[simp] theorem setDI_params (b : Level) : (setDI b s).params = s.params := rfl
@[simp] theorem setDI_pending (b : Level) : (setDI b s).pending = s.pending := rfl
@[simp] theorem setDI_samples (b : Level) : (setDI b s).samples = s.samples := rfl
@[simp] theorem setDI_drawn (b : Level) : (setDI b s).drawn = s.drawn := rfl
@[simp] theorem setDI_liveIds (b : Level) : (setDI b s).liveIds = s.liveIds := rfl
@[simp] theorem setDI_log (b : Level) : (setDI b s).log = .di b :: s.log := rfl
@[simp] theorem setDI_returned (b : Level) : (setDI b s).returned = s.returned := rfl

@[simp] theorem setCS_di (b : Level) : (setCS b s).di = s.di := rfl
@[simp] theorem setCS_cs (b : Level) : (setCS b s).cs = b := rfl
@[simp] theorem setCS_clk (b : Level) : (setCS b s).clk = s.clk := rfl
@[simp] theorem setCS_tx (b : Level) : (setCS b s).tx = s.tx := rfl
@[simp] theorem setCS_rx (b : Level) : (setCS b s).rx = s.rx := rfl
@[simp] theorem setCS_tmp (b : Level) : (setCS b s).tmp = s.tmp := rfl
@[simp] theorem setCS_buf (b : Level) : (setCS b s).buf = s.buf := rfl
@[simp] theorem setCS_prox (b : Level) : (setCS b s).prox = s.prox := rfl
@[simp] theorem setCS_freq (b : Level) : (setCS b s).freq = s.freq := rfl
@[simp] theorem setCS_dev (b : Level) : (setCS b s).dev = s.dev := rfl
@[simp] theorem setCS_fault (b : Level) : (setCS b s).fault = s.fault := rfl
@[simp] theorem setCS_faultInfo (b : Level) : (setCS b s).faultInfo = s.faultInfo := rfl
@[simp] theorem setCS_id (b : Level) : (setCS b s).id = s.id := rfl
@[simp] theorem setCS_bound (b : Level) : (setCS b s).bound = s.bound := rfl
@[simp] theorem setCS_seq (b : Level) : (setCS b s).seq = s.seq := rfl
@[simp] theorem setCS_params (b : Level) : (setCS b s).params = s.params := rfl
@[simp] theorem setCS_pending (b : Level) : (setCS b s).pending = s.pending := rfl
@[simp] theorem setCS_samples (b : Level) : (setCS b s).samples = s.samples := rfl
@[simp] theorem setCS_drawn (b : Level) : (setCS b s).drawn = s.drawn := rfl
@[simp] theorem setCS_liveIds (b : Level) : (setCS b s).liveIds = s.liveIds := rfl
@[simp] theorem setCS_log (b : Level) : (setCS b s).log = .cs b :: s.log := rfl
@[simp] theorem setCS_returned (b : Level) : (setCS b s).returned = s.returned := rfl

@[simp] theorem toggleCLK_di : (toggleCLK s).di = s.di := rfl
@[simp] theorem toggleCLK_cs : (toggleCLK s).cs = s.cs := rfl
@[simp] theorem toggleCLK_clk : (toggleCLK s).clk = !s.clk := rfl
@[simp] theorem toggleCLK_tx : (toggleCLK s).tx = s.tx := rfl
@[simp] theorem toggleCLK_rx : (toggleCLK s).rx = s.rx := rfl
@[simp] theorem toggleCLK_tmp : (toggleCLK s).tmp = s.tmp := rfl
@[simp] theorem toggleCLK_buf : (toggleCLK s).buf = s.buf := rfl
@[simp] theorem toggleCLK_prox : (toggleCLK s).prox = s.prox := rfl
@[simp] theorem toggleCLK_freq : (toggleCLK s).freq = s.freq := rfl
@[simp] theorem toggleCLK_dev : (toggleCLK s).dev = s.dev := rfl
@[simp] theorem toggleCLK_fault : (toggleCLK s).fault = s.fault := rfl
@[simp] theorem toggleCLK_faultInfo : (toggleCLK s).faultInfo = s.faultInfo := rfl
@[simp] theorem toggleCLK_id : (toggleCLK s).id = s.id := rfl
@[simp] theorem toggleCLK_bound : (toggleCLK s).bound = s.bound := rfl
@[simp] theorem toggleCLK_seq : (toggleCLK s).seq = s.seq := rfl
@[simp] theorem toggleCLK_params : (toggleCLK s).params = s.params := rfl
@[simp] theorem toggleCLK_pending : (toggleCLK s).pending = s.pending := rfl
@[simp] theorem toggleCLK_samples : (toggleCLK s).samples = s.samples := rfl
@[simp] theorem toggleCLK_drawn : (toggleCLK s).drawn = s.drawn := rfl
@[simp] theorem toggleCLK_liveIds : (toggleCLK s).liveIds = s.liveIds := rfl
@[simp] theorem toggleCLK_log : (toggleCLK s).log = .ck (!s.clk) :: s.log := rfl
@[simp] theorem toggleCLK_returned : (toggleCLK s).returned = s.returned := rfl

@[simp] theorem getDO_di : (getDO s).di = s.di := rfl
@[simp] theorem getDO_cs : (getDO s).cs = s.cs := rfl
@[simp] theorem getDO_clk : (getDO s).clk = s.clk := rfl
@[simp] theorem getDO_tx : (getDO s).tx = s.tx := rfl
@[simp] theorem getDO_rx : (getDO s).rx = s.rx := rfl
@[simp] theorem getDO_tmp : (getDO s).tmp = s.tmp := rfl
@[simp] theorem getDO_buf : (getDO s).buf = s.buf := rfl
@[simp] theorem getDO_prox : (getDO s).prox = s.prox := rfl
@[simp] theorem getDO_freq : (getDO s).freq = s.freq := rfl
@[simp] theorem getDO_dev : (getDO s).dev = s.dev := rfl
@[simp] theorem getDO_fault : (getDO s).fault = s.fault := rfl
@[simp] theorem getDO_faultInfo : (getDO s).faultInfo = s.faultInfo := rfl
@[simp] theorem getDO_id : (getDO s).id = s.id := rfl
@[simp] theorem getDO_bound : (getDO s).bound = s.bound := rfl
@[simp] theorem getDO_seq : (getDO s).seq = s.seq := rfl
@[simp] theorem getDO_params : (getDO s).params = s.params := rfl
@[simp] theorem getDO_pending : (getDO s).pending = s.pending := rfl
@[simp] theorem getDO_samples : (getDO s).samples = s.samples.drop 1 := rfl
@[simp] theorem getDO_drawn : (getDO s).drawn = s.drawn + (1 - s.samples.length) := rfl
@[simp] theorem getDO_liveIds : (getDO s).liveIds = s.liveIds := rfl
@[simp] theorem getDO_log : (getDO s).log = .sample (s.upcoming 0) :: s.log := rfl
@[simp] theorem getDO_returned : (getDO s).returned = s.returned := rfl

@[simp] theorem delayUs_di (n : Nat) : (delayUs n s).di = s.di := rfl
@[simp] theorem delayUs_cs (n : Nat) : (delayUs n s).cs = s.cs := rfl
@[simp] theorem delayUs_clk (n : Nat) : (delayUs n s).clk = s.clk := rfl
@[simp] theorem delayUs_tx (n : Nat) : (delayUs n s).tx = s.tx := rfl
@[simp] theorem delayUs_rx (n : Nat) : (delayUs n s).rx = s.rx := rfl
@[simp] theorem delayUs_tmp (n : Nat) : (delayUs n s).tmp = s.tmp := rfl
@[simp] theorem delayUs_buf (n : Nat) : (delayUs n s).buf = s.buf := rfl
@[simp] theorem delayUs_prox (n : Nat) : (delayUs n s).prox = s.prox := rfl
@[simp] theorem delayUs_freq (n : Nat) : (delayUs n s).freq = s.freq := rfl
@[simp] theorem delayUs_dev (n : Nat) : (delayUs n s).dev = s.dev := rfl
@[simp] theorem delayUs_fault (n : Nat) : (delayUs n s).fault = s.fault := rfl
@[simp] theorem delayUs_faultInfo (n : Nat) : (delayUs n s).faultInfo = s.faultInfo := rfl
@[simp] theorem delayUs_id (n : Nat) : (delayUs n s).id = s.id := rfl
@[simp] theorem delayUs_bound (n : Nat) : (delayUs n s).bound = s.bound := rfl
@[simp] theorem delayUs_seq (n : Nat) : (delayUs n s).seq = s.seq := rfl
@[simp] theorem delayUs_params (n : Nat) : (delayUs n s).params = s.params := rfl
@[simp] theorem delayUs_pending (n : Nat) : (delayUs n s).pending = s.pending := rfl
@[simp] theorem delayUs_samples (n : Nat) : (delayUs n s).samples = s.samples := rfl
@[simp] theorem delayUs_drawn (n : Nat) : (delayUs n s).drawn = s.drawn := rfl
@[simp] theorem delayUs_liveIds (n : Nat) : (delayUs n s).liveIds = s.liveIds := rfl
@[simp] theorem delayUs_log (n : Nat) : (delayUs n s).log = .wait n :: s.log := rfl
@[simp] theorem delayUs_returned (n : Nat) : (delayUs n s).returned = s.returned := rfl

@[simp] theorem padWait_di : (padWait s).di = s.di := rfl
@[simp] theorem padWait_cs : (padWait s).cs = s.cs := rfl
@[simp] theorem padWait_clk : (padWait s).clk = s.clk := rfl
@[simp] theorem padWait_tx : (padWait s).tx = s.tx := rfl
@[simp] theorem padWait_rx : (padWait s).rx = s.rx := rfl
@[simp] theorem padWait_tmp : (padWait s).tmp = s.tmp := rfl
@[simp] theorem padWait_buf : (padWait s).buf = s.buf := rfl
@[simp] theorem padWait_prox : (padWait s).prox = s.prox := rfl
@[simp] theorem padWait_freq : (padWait s).freq = s.freq := rfl
@[simp] theorem padWait_dev : (padWait s).dev = s.dev := rfl
@[simp] theorem padWait_fault : (padWait s).fault = s.fault := rfl
@[simp] theorem padWait_faultInfo : (padWait s).faultInfo = s.faultInfo := rfl
@[simp] theorem padWait_id : (padWait s).id = s.id := rfl
@[simp] theorem padWait_bound : (padWait s).bound = s.bound := rfl
@[simp] theorem padWait_seq : (padWait s).seq = s.seq := rfl
@[simp] theorem padWait_params : (padWait s).params = s.params := rfl
@[simp] theorem padWait_pending : (padWait s).pending = s.pending := rfl
@[simp] theorem padWait_samples : (padWait s).samples = s.samples := rfl
@[simp] theorem padWait_drawn : (padWait s).drawn = s.drawn := rfl
@[simp] theorem padWait_liveIds : (padWait s).liveIds = s.liveIds := rfl
@[simp] theorem padWait_log : (padWait s).log = .pad :: s.log := rfl
@[simp] theorem padWait_returned : (padWait s).returned = s.returned := rfl

@[simp] theorem loadByte_di (b : Byte) : (loadByte b s).di = s.di := rfl
@[simp] theorem loadByte_cs (b : Byte) : (loadByte b s).cs = s.cs := rfl
@[simp] theorem loadByte_clk (b : Byte) : (loadByte b s).clk = s.clk := rfl
@[simp] theorem loadByte_tx (b : Byte) : (loadByte b s).tx = b := rfl
@[simp] theorem loadByte_rx (b : Byte) : (loadByte b s).rx = 0#8 := rfl
@[simp] theorem loadByte_tmp (b : Byte) : (loadByte b s).tmp = s.tmp := rfl
@[simp] theorem loadByte_buf (b : Byte) : (loadByte b s).buf = s.buf := rfl
@[simp] theorem loadByte_prox (b : Byte) : (loadByte b s).prox = s.prox := rfl
@[simp] theorem loadByte_freq (b : Byte) : (loadByte b s).freq = s.freq := rfl
@[simp] theorem loadByte_dev (b : Byte) : (loadByte b s).dev = s.dev := rfl
@[simp] theorem loadByte_fault (b : Byte) : (loadByte b s).fault = s.fault := rfl
@[simp] theorem loadByte_faultInfo (b : Byte) : (loadByte b s).faultInfo = s.faultInfo := rfl
@[simp] theorem loadByte_id (b : Byte) : (loadByte b s).id = s.id := rfl
@[simp] theorem loadByte_bound (b : Byte) : (loadByte b s).bound = s.bound := rfl
@[simp] theorem loadByte_seq (b : Byte) : (loadByte b s).seq = s.seq := rfl
@[simp] theorem loadByte_params (b : Byte) : (loadByte b s).params = s.params := rfl
@[simp] theorem loadByte_pending (b : Byte) : (loadByte b s).pending = s.pending := rfl
@[simp] theorem loadByte_samples (b : Byte) : (loadByte b s).samples = s.samples := rfl
@[simp] theorem loadByte_drawn (b : Byte) : (loadByte b s).drawn = s.drawn := rfl
@[simp] theorem loadByte_liveIds (b : Byte) : (loadByte b s).liveIds = s.liveIds := rfl
@[simp] theorem loadByte_log (b : Byte) : (loadByte b s).log = s.log := rfl
@[simp] theorem loadByte_returned (b : Byte) : (loadByte b s).returned = s.returned := rfl

@[simp] theorem raise_di (e : FatalError) (i : Byte) : (raise e i s).di = s.di := rfl
@[simp] theorem raise_cs (e : FatalError) (i : Byte) : (raise e i s).cs = s.cs := rfl
@[simp] theorem raise_clk (e : FatalError) (i : Byte) : (raise e i s).clk = s.clk := rfl
@[simp] theorem raise_tx (e : FatalError) (i : Byte) : (raise e i s).tx = s.tx := rfl
@[simp] theorem raise_rx (e : FatalError) (i : Byte) : (raise e i s).rx = s.rx := rfl
@[simp] theorem raise_tmp (e : FatalError) (i : Byte) : (raise e i s).tmp = s.tmp := rfl
@[simp] theorem raise_buf (e : FatalError) (i : Byte) : (raise e i s).buf = s.buf := rfl
@[simp] theorem raise_prox (e : FatalError) (i : Byte) : (raise e i s).prox = s.prox := rfl
@[simp] theorem raise_freq (e : FatalError) (i : Byte) : (raise e i s).freq = s.freq := rfl
@[simp] theorem raise_dev (e : FatalError) (i : Byte) : (raise e i s).dev = s.dev := rfl
@[simp] theorem raise_fault (e : FatalError) (i : Byte) : (raise e i s).fault = some e := rfl
@[simp] theorem raise_faultInfo (e : FatalError) (i : Byte) : (raise e i s).faultInfo = i := rfl
@[simp] theorem raise_id (e : FatalError) (i : Byte) : (raise e i s).id = s.id := rfl
@[simp] theorem raise_bound (e : FatalError) (i : Byte) : (raise e i s).bound = s.bound := rfl
@[simp] theorem raise_seq (e : FatalError) (i : Byte) : (raise e i s).seq = .idle := rfl
@[simp] theorem raise_params (e : FatalError) (i : Byte) : (raise e i s).params = s.params := rfl
@[simp] theorem raise_pending (e : FatalError) (i : Byte) : (raise e i s).pending = s.pending := rfl
@[simp] theorem raise_samples (e : FatalError) (i : Byte) : (raise e i s).samples = s.samples := rfl
@[simp] theorem raise_drawn (e : FatalError) (i : Byte) : (raise e i s).drawn = s.drawn := rfl
@[simp] theorem raise_liveIds (e : FatalError) (i : Byte) : (raise e i s).liveIds = s.liveIds := rfl
@[simp] theorem raise_log (e : FatalError) (i : Byte) : (raise e i s).log = s.log := rfl
@[simp] theorem raise_returned (e : FatalError) (i : Byte) : (raise e i s).returned = s.returned := rfl

@[simp] theorem resetBlock_di : (resetBlock s).di = s.params.diInit := rfl
@[simp] theorem resetBlock_cs : (resetBlock s).cs = s.params.csInit := rfl
@[simp] theorem resetBlock_clk : (resetBlock s).clk = s.params.clkInit := rfl
@[simp] theorem resetBlock_tx : (resetBlock s).tx = 0#8 := rfl
@[simp] theorem resetBlock_rx : (resetBlock s).rx = 0#8 := rfl
@[simp] theorem resetBlock_tmp : (resetBlock s).tmp = Vector.replicate 5 0#8 := rfl
@[simp] theorem resetBlock_buf : (resetBlock s).buf = Vector.replicate 12 0#8 := rfl
@[simp] theorem resetBlock_prox : (resetBlock s).prox = 0#16 := rfl
@[simp] theorem resetBlock_freq : (resetBlock s).freq = 0#32 := rfl
@[simp] theorem resetBlock_dev : (resetBlock s).dev = .uninitialized := rfl
@[simp] theorem resetBlock_fault : (resetBlock s).fault = none := rfl
@[simp] theorem resetBlock_faultInfo : (resetBlock s).faultInfo = 0#8 := rfl
@[simp] theorem resetBlock_id : (resetBlock s).id = 0#8 := rfl
@[simp] theorem resetBlock_bound : (resetBlock s).bound = false := rfl
@[simp] theorem resetBlock_seq : (resetBlock s).seq = .idle := rfl
@[simp] theorem resetBlock_params : (resetBlock s).params = s.params := rfl
@[simp] theorem resetBlock_pending : (resetBlock s).pending = s.pending := rfl
@[simp] theorem resetBlock_samples : (resetBlock s).samples = s.samples := rfl
@[simp] theorem resetBlock_drawn : (resetBlock s).drawn = s.drawn := rfl
@[simp] theorem resetBlock_liveIds : (resetBlock s).liveIds = s.liveIds := rfl
@[simp] theorem resetBlock_log : (resetBlock s).log = s.log := rfl
@[simp] theorem resetBlock_returned : (resetBlock s).returned = s.returned := rfl

@[simp] theorem loadTx_di (b : Byte) : (loadTx b s).di = s.di := rfl
@[simp] theorem loadTx_cs (b : Byte) : (loadTx b s).cs = s.cs := rfl
@[simp] theorem loadTx_clk (b : Byte) : (loadTx b s).clk = s.clk := rfl
@[simp] theorem loadTx_tx (b : Byte) : (loadTx b s).tx = b := rfl
@[simp] theorem loadTx_rx (b : Byte) : (loadTx b s).rx = s.rx := rfl
@[simp] theorem loadTx_tmp (b : Byte) : (loadTx b s).tmp = s.tmp := rfl
@[simp] theorem loadTx_buf (b : Byte) : (loadTx b s).buf = s.buf := rfl
@[simp] theorem loadTx_prox (b : Byte) : (loadTx b s).prox = s.prox := rfl
@[simp] theorem loadTx_freq (b : Byte) : (loadTx b s).freq = s.freq := rfl
@[simp] theorem loadTx_dev (b : Byte) : (loadTx b s).dev = s.dev := rfl
@[simp] theorem loadTx_fault (b : Byte) : (loadTx b s).fault = s.fault := rfl
@[simp] theorem loadTx_faultInfo (b : Byte) : (loadTx b s).faultInfo = s.faultInfo := rfl
@[simp] theorem loadTx_id (b : Byte) : (loadTx b s).id = s.id := rfl
@[simp] theorem loadTx_bound (b : Byte) : (loadTx b s).bound = s.bound := rfl
@[simp] theorem loadTx_seq (b : Byte) : (loadTx b s).seq = s.seq := rfl
@[simp] theorem loadTx_params (b : Byte) : (loadTx b s).params = s.params := rfl
@[simp] theorem loadTx_pending (b : Byte) : (loadTx b s).pending = s.pending := rfl
@[simp] theorem loadTx_samples (b : Byte) : (loadTx b s).samples = s.samples := rfl
@[simp] theorem loadTx_drawn (b : Byte) : (loadTx b s).drawn = s.drawn := rfl
@[simp] theorem loadTx_liveIds (b : Byte) : (loadTx b s).liveIds = s.liveIds := rfl
@[simp] theorem loadTx_log (b : Byte) : (loadTx b s).log = s.log := rfl
@[simp] theorem loadTx_returned (b : Byte) : (loadTx b s).returned = s.returned := rfl

@[simp] theorem clearRx_di : (clearRx s).di = s.di := rfl
@[simp] theorem clearRx_cs : (clearRx s).cs = s.cs := rfl
@[simp] theorem clearRx_clk : (clearRx s).clk = s.clk := rfl
@[simp] theorem clearRx_tx : (clearRx s).tx = s.tx := rfl
@[simp] theorem clearRx_rx : (clearRx s).rx = 0x00#8 := rfl
@[simp] theorem clearRx_tmp : (clearRx s).tmp = s.tmp := rfl
@[simp] theorem clearRx_buf : (clearRx s).buf = s.buf := rfl
@[simp] theorem clearRx_prox : (clearRx s).prox = s.prox := rfl
@[simp] theorem clearRx_freq : (clearRx s).freq = s.freq := rfl
@[simp] theorem clearRx_dev : (clearRx s).dev = s.dev := rfl
@[simp] theorem clearRx_fault : (clearRx s).fault = s.fault := rfl
@[simp] theorem clearRx_faultInfo : (clearRx s).faultInfo = s.faultInfo := rfl
@[simp] theorem clearRx_id : (clearRx s).id = s.id := rfl
@[simp] theorem clearRx_bound : (clearRx s).bound = s.bound := rfl
@[simp] theorem clearRx_seq : (clearRx s).seq = s.seq := rfl
@[simp] theorem clearRx_params : (clearRx s).params = s.params := rfl
@[simp] theorem clearRx_pending : (clearRx s).pending = s.pending := rfl
@[simp] theorem clearRx_samples : (clearRx s).samples = s.samples := rfl
@[simp] theorem clearRx_drawn : (clearRx s).drawn = s.drawn := rfl
@[simp] theorem clearRx_liveIds : (clearRx s).liveIds = s.liveIds := rfl
@[simp] theorem clearRx_log : (clearRx s).log = s.log := rfl
@[simp] theorem clearRx_returned : (clearRx s).returned = s.returned := rfl

@[simp] theorem shiftTx_di : (shiftTx s).di = s.di := rfl
@[simp] theorem shiftTx_cs : (shiftTx s).cs = s.cs := rfl
@[simp] theorem shiftTx_clk : (shiftTx s).clk = s.clk := rfl
@[simp] theorem shiftTx_tx : (shiftTx s).tx = s.tx <<< 1 := rfl
@[simp] theorem shiftTx_rx : (shiftTx s).rx = s.rx := rfl
@[simp] theorem shiftTx_tmp : (shiftTx s).tmp = s.tmp := rfl
@[simp] theorem shiftTx_buf : (shiftTx s).buf = s.buf := rfl
@[simp] theorem shiftTx_prox : (shiftTx s).prox = s.prox := rfl
@[simp] theorem shiftTx_freq : (shiftTx s).freq = s.freq := rfl
@[simp] theorem shiftTx_dev : (shiftTx s).dev = s.dev := rfl
@[simp] theorem shiftTx_fault : (shiftTx s).fault = s.fault := rfl
@[simp] theorem shiftTx_faultInfo : (shiftTx s).faultInfo = s.faultInfo := rfl
@[simp] theorem shiftTx_id : (shiftTx s).id = s.id := rfl
@[simp] theorem shiftTx_bound : (shiftTx s).bound = s.bound := rfl
@[simp] theorem shiftTx_seq : (shiftTx s).seq = s.seq := rfl
@[simp] theorem shiftTx_params : (shiftTx s).params = s.params := rfl
@[simp] theorem shiftTx_pending : (shiftTx s).pending = s.pending := rfl
@[simp] theorem shiftTx_samples : (shiftTx s).samples = s.samples := rfl
@[simp] theorem shiftTx_drawn : (shiftTx s).drawn = s.drawn := rfl
@[simp] theorem shiftTx_liveIds : (shiftTx s).liveIds = s.liveIds := rfl
@[simp] theorem shiftTx_log : (shiftTx s).log = s.log := rfl
@[simp] theorem shiftTx_returned : (shiftTx s).returned = s.returned := rfl

@[simp] theorem shiftRx_di : (shiftRx s).di = s.di := rfl
@[simp] theorem shiftRx_cs : (shiftRx s).cs = s.cs := rfl
@[simp] theorem shiftRx_clk : (shiftRx s).clk = s.clk := rfl
@[simp] theorem shiftRx_tx : (shiftRx s).tx = s.tx := rfl
@[simp] theorem shiftRx_rx : (shiftRx s).rx = s.rx <<< 1 := rfl
@[simp] theorem shiftRx_tmp : (shiftRx s).tmp = s.tmp := rfl
@[simp] theorem shiftRx_buf : (shiftRx s).buf = s.buf := rfl
@[simp] theorem shiftRx_prox : (shiftRx s).prox = s.prox := rfl
@[simp] theorem shiftRx_freq : (shiftRx s).freq = s.freq := rfl
@[simp] theorem shiftRx_dev : (shiftRx s).dev = s.dev := rfl
@[simp] theorem shiftRx_fault : (shiftRx s).fault = s.fault := rfl
@[simp] theorem shiftRx_faultInfo : (shiftRx s).faultInfo = s.faultInfo := rfl
@[simp] theorem shiftRx_id : (shiftRx s).id = s.id := rfl
@[simp] theorem shiftRx_bound : (shiftRx s).bound = s.bound := rfl
@[simp] theorem shiftRx_seq : (shiftRx s).seq = s.seq := rfl
@[simp] theorem shiftRx_params : (shiftRx s).params = s.params := rfl
@[simp] theorem shiftRx_pending : (shiftRx s).pending = s.pending := rfl
@[simp] theorem shiftRx_samples : (shiftRx s).samples = s.samples := rfl
@[simp] theorem shiftRx_drawn : (shiftRx s).drawn = s.drawn := rfl
@[simp] theorem shiftRx_liveIds : (shiftRx s).liveIds = s.liveIds := rfl
@[simp] theorem shiftRx_log : (shiftRx s).log = s.log := rfl
@[simp] theorem shiftRx_returned : (shiftRx s).returned = s.returned := rfl

@[simp] theorem storeBit_di (b : Level) : (storeBit b s).di = s.di := rfl
@[simp] theorem storeBit_cs (b : Level) : (storeBit b s).cs = s.cs := rfl
@[simp] theorem storeBit_clk (b : Level) : (storeBit b s).clk = s.clk := rfl
@[simp] theorem storeBit_tx (b : Level) : (storeBit b s).tx = s.tx := rfl
@[simp] theorem storeBit_rx (b : Level) : (storeBit b s).rx = s.rx ||| (if b then 0x01#8 else 0x00#8) := rfl
@[simp] theorem storeBit_tmp (b : Level) : (storeBit b s).tmp = s.tmp := rfl
@[simp] theorem storeBit_buf (b : Level) : (storeBit b s).buf = s.buf := rfl
@[simp] theorem storeBit_prox (b : Level) : (storeBit b s).prox = s.prox := rfl
@[simp] theorem storeBit_freq (b : Level) : (storeBit b s).freq = s.freq := rfl
@[simp] theorem storeBit_dev (b : Level) : (storeBit b s).dev = s.dev := rfl
@[simp] theorem storeBit_fault (b : Level) : (storeBit b s).fault = s.fault := rfl
@[simp] theorem storeBit_faultInfo (b : Level) : (storeBit b s).faultInfo = s.faultInfo := rfl
@[simp] theorem storeBit_id (b : Level) : (storeBit b s).id = s.id := rfl
@[simp] theorem storeBit_bound (b : Level) : (storeBit b s).bound = s.bound := rfl
@[simp] theorem storeBit_seq (b : Level) : (storeBit b s).seq = s.seq := rfl
@[simp] theorem storeBit_params (b : Level) : (storeBit b s).params = s.params := rfl
@[simp] theorem storeBit_pending (b : Level) : (storeBit b s).pending = s.pending := rfl
@[simp] theorem storeBit_samples (b : Level) : (storeBit b s).samples = s.samples := rfl
@[simp] theorem storeBit_drawn (b : Level) : (storeBit b s).drawn = s.drawn := rfl
@[simp] theorem storeBit_liveIds (b : Level) : (storeBit b s).liveIds = s.liveIds := rfl
@[simp] theorem storeBit_log (b : Level) : (storeBit b s).log = s.log := rfl
@[simp] theorem storeBit_returned (b : Level) : (storeBit b s).returned = s.returned := rfl

@[simp] theorem storeBuf_di (j : Fin 12) : (storeBuf j s).di = s.di := rfl
@[simp] theorem storeBuf_cs (j : Fin 12) : (storeBuf j s).cs = s.cs := rfl
@[simp] theorem storeBuf_clk (j : Fin 12) : (storeBuf j s).clk = s.clk := rfl
@[simp] theorem storeBuf_tx (j : Fin 12) : (storeBuf j s).tx = s.tx := rfl
@[simp] theorem storeBuf_rx (j : Fin 12) : (storeBuf j s).rx = s.rx := rfl
@[simp] theorem storeBuf_tmp (j : Fin 12) : (storeBuf j s).tmp = s.tmp := rfl
@[simp] theorem storeBuf_buf (j : Fin 12) : (storeBuf j s).buf = s.buf.set j s.rx := rfl
@[simp] theorem storeBuf_prox (j : Fin 12) : (storeBuf j s).prox = s.prox := rfl
@[simp] theorem storeBuf_freq (j : Fin 12) : (storeBuf j s).freq = s.freq := rfl
@[simp] theorem storeBuf_dev (j : Fin 12) : (storeBuf j s).dev = s.dev := rfl
@[simp] theorem storeBuf_fault (j : Fin 12) : (storeBuf j s).fault = s.fault := rfl
@[simp] theorem storeBuf_faultInfo (j : Fin 12) : (storeBuf j s).faultInfo = s.faultInfo := rfl
@[simp] theorem storeBuf_id (j : Fin 12) : (storeBuf j s).id = s.id := rfl
@[simp] theorem storeBuf_bound (j : Fin 12) : (storeBuf j s).bound = s.bound := rfl
@[simp] theorem storeBuf_seq (j : Fin 12) : (storeBuf j s).seq = s.seq := rfl
@[simp] theorem storeBuf_params (j : Fin 12) : (storeBuf j s).params = s.params := rfl
@[simp] theorem storeBuf_pending (j : Fin 12) : (storeBuf j s).pending = s.pending := rfl
@[simp] theorem storeBuf_samples (j : Fin 12) : (storeBuf j s).samples = s.samples := rfl
@[simp] theorem storeBuf_drawn (j : Fin 12) : (storeBuf j s).drawn = s.drawn := rfl
@[simp] theorem storeBuf_liveIds (j : Fin 12) : (storeBuf j s).liveIds = s.liveIds := rfl
@[simp] theorem storeBuf_log (j : Fin 12) : (storeBuf j s).log = s.log := rfl
@[simp] theorem storeBuf_returned (j : Fin 12) : (storeBuf j s).returned = s.returned := rfl

@[simp] theorem storeTmp_di (r : Fin 5) : (storeTmp r s).di = s.di := rfl
@[simp] theorem storeTmp_cs (r : Fin 5) : (storeTmp r s).cs = s.cs := rfl
@[simp] theorem storeTmp_clk (r : Fin 5) : (storeTmp r s).clk = s.clk := rfl
@[simp] theorem storeTmp_tx (r : Fin 5) : (storeTmp r s).tx = s.tx := rfl
@[simp] theorem storeTmp_rx (r : Fin 5) : (storeTmp r s).rx = s.rx := rfl
@[simp] theorem storeTmp_tmp (r : Fin 5) : (storeTmp r s).tmp = s.tmp.set r s.rx := rfl
@[simp] theorem storeTmp_buf (r : Fin 5) : (storeTmp r s).buf = s.buf := rfl
@[simp] theorem storeTmp_prox (r : Fin 5) : (storeTmp r s).prox = s.prox := rfl
@[simp] theorem storeTmp_freq (r : Fin 5) : (storeTmp r s).freq = s.freq := rfl
@[simp] theorem storeTmp_dev (r : Fin 5) : (storeTmp r s).dev = s.dev := rfl
@[simp] theorem storeTmp_fault (r : Fin 5) : (storeTmp r s).fault = s.fault := rfl
@[simp] theorem storeTmp_faultInfo (r : Fin 5) : (storeTmp r s).faultInfo = s.faultInfo := rfl
@[simp] theorem storeTmp_id (r : Fin 5) : (storeTmp r s).id = s.id := rfl
@[simp] theorem storeTmp_bound (r : Fin 5) : (storeTmp r s).bound = s.bound := rfl
@[simp] theorem storeTmp_seq (r : Fin 5) : (storeTmp r s).seq = s.seq := rfl
@[simp] theorem storeTmp_params (r : Fin 5) : (storeTmp r s).params = s.params := rfl
@[simp] theorem storeTmp_pending (r : Fin 5) : (storeTmp r s).pending = s.pending := rfl
@[simp] theorem storeTmp_samples (r : Fin 5) : (storeTmp r s).samples = s.samples := rfl
@[simp] theorem storeTmp_drawn (r : Fin 5) : (storeTmp r s).drawn = s.drawn := rfl
@[simp] theorem storeTmp_liveIds (r : Fin 5) : (storeTmp r s).liveIds = s.liveIds := rfl
@[simp] theorem storeTmp_log (r : Fin 5) : (storeTmp r s).log = s.log := rfl
@[simp] theorem storeTmp_returned (r : Fin 5) : (storeTmp r s).returned = s.returned := rfl

@[simp] theorem setId_di (i : Byte) : (setId i s).di = s.di := rfl
@[simp] theorem setId_cs (i : Byte) : (setId i s).cs = s.cs := rfl
@[simp] theorem setId_clk (i : Byte) : (setId i s).clk = s.clk := rfl
@[simp] theorem setId_tx (i : Byte) : (setId i s).tx = s.tx := rfl
@[simp] theorem setId_rx (i : Byte) : (setId i s).rx = s.rx := rfl
@[simp] theorem setId_tmp (i : Byte) : (setId i s).tmp = s.tmp := rfl
@[simp] theorem setId_buf (i : Byte) : (setId i s).buf = s.buf := rfl
@[simp] theorem setId_prox (i : Byte) : (setId i s).prox = s.prox := rfl
@[simp] theorem setId_freq (i : Byte) : (setId i s).freq = s.freq := rfl
@[simp] theorem setId_dev (i : Byte) : (setId i s).dev = s.dev := rfl
@[simp] theorem setId_fault (i : Byte) : (setId i s).fault = s.fault := rfl
@[simp] theorem setId_faultInfo (i : Byte) : (setId i s).faultInfo = s.faultInfo := rfl
@[simp] theorem setId_id (i : Byte) : (setId i s).id = i := rfl
@[simp] theorem setId_bound (i : Byte) : (setId i s).bound = s.bound := rfl
@[simp] theorem setId_seq (i : Byte) : (setId i s).seq = s.seq := rfl
@[simp] theorem setId_params (i : Byte) : (setId i s).params = s.params := rfl
@[simp] theorem setId_pending (i : Byte) : (setId i s).pending = s.pending := rfl
@[simp] theorem setId_samples (i : Byte) : (setId i s).samples = s.samples := rfl
@[simp] theorem setId_drawn (i : Byte) : (setId i s).drawn = s.drawn := rfl
@[simp] theorem setId_liveIds (i : Byte) : (setId i s).liveIds = s.liveIds := rfl
@[simp] theorem setId_log (i : Byte) : (setId i s).log = s.log := rfl
@[simp] theorem setId_returned (i : Byte) : (setId i s).returned = s.returned := rfl

@[simp] theorem setDev_di (d : DevState) : (setDev d s).di = s.di := rfl
@[simp] theorem setDev_cs (d : DevState) : (setDev d s).cs = s.cs := rfl
@[simp] theorem setDev_clk (d : DevState) : (setDev d s).clk = s.clk := rfl
@[simp] theorem setDev_tx (d : DevState) : (setDev d s).tx = s.tx := rfl
@[simp] theorem setDev_rx (d : DevState) : (setDev d s).rx = s.rx := rfl
@[simp] theorem setDev_tmp (d : DevState) : (setDev d s).tmp = s.tmp := rfl
@[simp] theorem setDev_buf (d : DevState) : (setDev d s).buf = s.buf := rfl
@[simp] theorem setDev_prox (d : DevState) : (setDev d s).prox = s.prox := rfl
@[simp] theorem setDev_freq (d : DevState) : (setDev d s).freq = s.freq := rfl
@[simp] theorem setDev_dev (d : DevState) : (setDev d s).dev = d := rfl
@[simp] theorem setDev_fault (d : DevState) : (setDev d s).fault = s.fault := rfl
@[simp] theorem setDev_faultInfo (d : DevState) : (setDev d s).faultInfo = s.faultInfo := rfl
@[simp] theorem setDev_id (d : DevState) : (setDev d s).id = s.id := rfl
@[simp] theorem setDev_bound (d : DevState) : (setDev d s).bound = s.bound := rfl
@[simp] theorem setDev_seq (d : DevState) : (setDev d s).seq = s.seq := rfl
@[simp] theorem setDev_params (d : DevState) : (setDev d s).params = s.params := rfl
@[simp] theorem setDev_pending (d : DevState) : (setDev d s).pending = s.pending := rfl
@[simp] theorem setDev_samples (d : DevState) : (setDev d s).samples = s.samples := rfl
@[simp] theorem setDev_drawn (d : DevState) : (setDev d s).drawn = s.drawn := rfl
@[simp] theorem setDev_liveIds (d : DevState) : (setDev d s).liveIds = s.liveIds := rfl
@[simp] theorem setDev_log (d : DevState) : (setDev d s).log = s.log := rfl
@[simp] theorem setDev_returned (d : DevState) : (setDev d s).returned = s.returned := rfl

@[simp] theorem clearProx_di : (clearProx s).di = s.di := rfl
@[simp] theorem clearProx_cs : (clearProx s).cs = s.cs := rfl
@[simp] theorem clearProx_clk : (clearProx s).clk = s.clk := rfl
@[simp] theorem clearProx_tx : (clearProx s).tx = s.tx := rfl
@[simp] theorem clearProx_rx : (clearProx s).rx = s.rx := rfl
@[simp] theorem clearProx_tmp : (clearProx s).tmp = s.tmp := rfl
@[simp] theorem clearProx_buf : (clearProx s).buf = s.buf := rfl
@[simp] theorem clearProx_prox : (clearProx s).prox = 0x0000#16 := rfl
@[simp] theorem clearProx_freq : (clearProx s).freq = s.freq := rfl
@[simp] theorem clearProx_dev : (clearProx s).dev = s.dev := rfl
@[simp] theorem clearProx_fault : (clearProx s).fault = s.fault := rfl
@[simp] theorem clearProx_faultInfo : (clearProx s).faultInfo = s.faultInfo := rfl
@[simp] theorem clearProx_id : (clearProx s).id = s.id := rfl
@[simp] theorem clearProx_bound : (clearProx s).bound = s.bound := rfl
@[simp] theorem clearProx_seq : (clearProx s).seq = s.seq := rfl
@[simp] theorem clearProx_params : (clearProx s).params = s.params := rfl
@[simp] theorem clearProx_pending : (clearProx s).pending = s.pending := rfl
@[simp] theorem clearProx_samples : (clearProx s).samples = s.samples := rfl
@[simp] theorem clearProx_drawn : (clearProx s).drawn = s.drawn := rfl
@[simp] theorem clearProx_liveIds : (clearProx s).liveIds = s.liveIds := rfl
@[simp] theorem clearProx_log : (clearProx s).log = s.log := rfl
@[simp] theorem clearProx_returned : (clearProx s).returned = s.returned := rfl

@[simp] theorem clearFreq_di : (clearFreq s).di = s.di := rfl
@[simp] theorem clearFreq_cs : (clearFreq s).cs = s.cs := rfl
@[simp] theorem clearFreq_clk : (clearFreq s).clk = s.clk := rfl
@[simp] theorem clearFreq_tx : (clearFreq s).tx = s.tx := rfl
@[simp] theorem clearFreq_rx : (clearFreq s).rx = s.rx := rfl
@[simp] theorem clearFreq_tmp : (clearFreq s).tmp = s.tmp := rfl
@[simp] theorem clearFreq_buf : (clearFreq s).buf = s.buf := rfl
@[simp] theorem clearFreq_prox : (clearFreq s).prox = s.prox := rfl
@[simp] theorem clearFreq_freq : (clearFreq s).freq = 0x00000000#32 := rfl
@[simp] theorem clearFreq_dev : (clearFreq s).dev = s.dev := rfl
@[simp] theorem clearFreq_fault : (clearFreq s).fault = s.fault := rfl
@[simp] theorem clearFreq_faultInfo : (clearFreq s).faultInfo = s.faultInfo := rfl
@[simp] theorem clearFreq_id : (clearFreq s).id = s.id := rfl
@[simp] theorem clearFreq_bound : (clearFreq s).bound = s.bound := rfl
@[simp] theorem clearFreq_seq : (clearFreq s).seq = s.seq := rfl
@[simp] theorem clearFreq_params : (clearFreq s).params = s.params := rfl
@[simp] theorem clearFreq_pending : (clearFreq s).pending = s.pending := rfl
@[simp] theorem clearFreq_samples : (clearFreq s).samples = s.samples := rfl
@[simp] theorem clearFreq_drawn : (clearFreq s).drawn = s.drawn := rfl
@[simp] theorem clearFreq_liveIds : (clearFreq s).liveIds = s.liveIds := rfl
@[simp] theorem clearFreq_log : (clearFreq s).log = s.log := rfl
@[simp] theorem clearFreq_returned : (clearFreq s).returned = s.returned := rfl

@[simp] theorem commitReadings_di : (commitReadings s).di = s.di := rfl
@[simp] theorem commitReadings_cs : (commitReadings s).cs = s.cs := rfl
@[simp] theorem commitReadings_clk : (commitReadings s).clk = s.clk := rfl
@[simp] theorem commitReadings_tx : (commitReadings s).tx = s.tx := rfl
@[simp] theorem commitReadings_rx : (commitReadings s).rx = s.rx := rfl
@[simp] theorem commitReadings_tmp : (commitReadings s).tmp = s.tmp := rfl
@[simp] theorem commitReadings_buf : (commitReadings s).buf = s.buf := rfl
@[simp] theorem commitReadings_prox : (commitReadings s).prox = composeProx s.tmp := rfl
@[simp] theorem commitReadings_freq : (commitReadings s).freq = composeFreq s.tmp := rfl
@[simp] theorem commitReadings_dev : (commitReadings s).dev = s.dev := rfl
@[simp] theorem commitReadings_fault : (commitReadings s).fault = s.fault := rfl
@[simp] theorem commitReadings_faultInfo : (commitReadings s).faultInfo = s.faultInfo := rfl
@[simp] theorem commitReadings_id : (commitReadings s).id = s.id := rfl
@[simp] theorem commitReadings_bound : (commitReadings s).bound = s.bound := rfl
@[simp] theorem commitReadings_seq : (commitReadings s).seq = s.seq := rfl
@[simp] theorem commitReadings_params : (commitReadings s).params = s.params := rfl
@[simp] theorem commitReadings_pending : (commitReadings s).pending = s.pending := rfl
@[simp] theorem commitReadings_samples : (commitReadings s).samples = s.samples := rfl
@[simp] theorem commitReadings_drawn : (commitReadings s).drawn = s.drawn := rfl
@[simp] theorem commitReadings_liveIds : (commitReadings s).liveIds = s.liveIds := rfl
@[simp] theorem commitReadings_log : (commitReadings s).log = s.log := rfl
@[simp] theorem commitReadings_returned : (commitReadings s).returned = s.returned := rfl

end Sys2Proof.Machine
end

