-- ==== Sys2Proof/Laws/Ops.lean ====
section
/-! SUPPORT. What each shared operation does, said once: the state it ends in, in closed form, so that no later proof
unfolds it. -/

namespace Sys2Proof.Machine

/-! ### The environment's answers -/

/-- The answers after `n` of them have been taken. -/
theorem upcoming_of_advance {s t : State} (n : Nat) (h₁ : t.samples = s.samples.drop n)
    (h₂ : t.drawn = s.drawn + (n - s.samples.length)) (k : Nat) : t.upcoming k = s.upcoming (n + k) := by
  simp only [State.upcoming, h₁, h₂, List.getElem?_drop, List.length_drop]
  congr 2
  omega
theorem advance_advance (s : State) (m n : Nat) : (s.advance m).advance n = s.advance (m + n) := by
  simp only [State.advance, List.drop_drop, List.length_drop]
  congr 1
  omega

/-! ### The Bit Transfer Engine -/

/-- Step 4 in one update (R121). -/
theorem stepSample_eq (s : State) :
    stepSample s = { getDO s with rx := s.rx ||| (if s.upcoming 0 then 0x01#8 else 0x00#8) } := rfl

/-- One bit slot (R121, R124). -/
theorem bitSlot_eq (s : State) :
    bitSlot s = { s.advance 1 with
      di := s.tx.msb, tx := s.tx <<< 1, rx := (s.rx <<< 1) ||| (if s.upcoming 0 then 0x01#8 else 0x00#8)
      log := .ck s.clk :: .sample (s.upcoming 0) :: .ck (!s.clk) :: .di s.tx.msb :: s.log } := by
  have h : bitSlot s = { s.advance 1 with
      di := s.tx.msb, clk := !!s.clk, tx := s.tx <<< 1
      rx := (s.rx <<< 1) ||| (if s.upcoming 0 then 0x01#8 else 0x00#8)
      log := .ck (!!s.clk) :: .sample (s.upcoming 0) :: .ck (!s.clk) :: .di s.tx.msb :: s.log } := by
    unfold bitSlot
    rw [stepSample_eq]
    rfl
  rw [h, Bool.not_not]
  rfl

theorem upcomingByte_of_advance {s t : State} (n : Nat) (h₁ : t.samples = s.samples.drop n)
    (h₂ : t.drawn = s.drawn + (n - s.samples.length)) (k : Nat) : t.upcomingByte k = s.upcomingByte (n + k) := by
  simp only [State.upcomingByte, upcoming_of_advance n h₁ h₂, Nat.add_assoc]

theorem bitSlots_succ (n : Nat) (s : State) :
    bitSlots (n+1) s = bitSlot (bitSlots n s) := by
  induction n generalizing s with
  | zero => rfl
  | succ n ih => rw [bitSlots, ih]; rfl

/-- The receive accumulator after `n` slots. -/
def bitFill (s : State) : Nat → Byte
  | 0 => s.rx
  | n + 1 => (bitFill s n <<< 1) ||| (if s.upcoming n then 0x01#8 else 0x00#8)

/-- The first `n + 1` slots of a transfer. -/
theorem bitSlots_eq (n : Nat) (hn : n < 8) (s : State) :
    bitSlots (n+1) s = { s.advance (n+1) with
      di := s.tx.getMsbD n, tx := s.tx <<< (n+1), rx := bitFill s (n+1)
      log := ((List.range (n+1)).flatMap fun k =>
        [.di (s.tx.getMsbD k), .ck (!s.clk), .sample (s.upcoming k), .ck s.clk]).reverse ++ s.log } := by
  induction n with
  | zero =>
    rw [bitSlots_succ]; simp [bitSlots, bitSlot_eq, bitFill, BitVec.msb]
  | succ n ih =>
    rw [bitSlots_succ, ih (by omega), bitSlot_eq]
    have hm : BitVec.msb (s.tx <<< (n + 1)) = s.tx.getMsbD (n + 1) := by
      simp [BitVec.msb]
    have hu := upcoming_of_advance (s := s) (t := { s.advance (n+1) with
      di := s.tx.getMsbD n, tx := s.tx <<< (n+1), rx := bitFill s (n+1)
      log := ((List.range (n+1)).flatMap fun k =>
        [.di (s.tx.getMsbD k), .ck (!s.clk), .sample (s.upcoming k), .ck s.clk]).reverse ++ s.log }) (n+1) rfl rfl 0
    simp only [hu, hm]
    rw [List.range_succ (n := n + 1), List.flatMap_append, List.reverse_append]
    ext1 <;> simp [bitFill, BitVec.shiftLeft_add]
    omega


theorem byteOfSamples_getMsbD (f : Nat → Level) (k : Nat) (hk : k < 8) : (byteOfSamples f).getMsbD k = f k := by
  rw [byteOfSamples, BitVec.getMsbD_ofBoolListBE]
  match k, hk with
  | 0, _ | 1, _ | 2, _ | 3, _ | 4, _ | 5, _ | 6, _ | 7, _ => rfl

theorem upcomingByte_getMsbD (s : State) (n k : Nat) (hk : k < 8) :
    (s.upcomingByte n).getMsbD k = s.upcoming (n + k) := by
  rw [State.upcomingByte, byteOfSamples_getMsbD _ _ hk]

theorem bitFill_getLsbD (s : State) (n i : Nat) (hi : i < n) (h8 : i < 8) :
    (bitFill s n).getLsbD i = s.upcoming (n - 1 - i) := by
  induction n generalizing i with
  | zero => omega
  | succ n ih =>
    cases i with
    | zero => cases h : s.upcoming n <;> simp [bitFill, h]
    | succ i =>
      have := ih i (by omega) (by omega)
      rw [show n + 1 - 1 - (i + 1) = n - 1 - i by omega, ← this]
      cases h : s.upcoming n <;> simp [bitFill, h] <;> omega

theorem bitFill_eight (s : State) : bitFill s 8 = s.upcomingByte 0 := by
  refine BitVec.eq_of_getMsbD_eq fun i hi => ?_
  rw [upcomingByte_getMsbD s 0 i hi, BitVec.getMsbD_eq_getLsbD, bitFill_getLsbD s 8 _ (by omega) (by omega)]
  simp [hi]
  congr 1
  omega

/-- TRANSFER(b) (R121, R122, R123, R125). -/
theorem transfer_eq (b : Byte) (s : State) : transfer b s =
   { s.advance 8 with
      di := b.getLsbD 0, tx := 0#8, rx := s.upcomingByte 0
      log := (transferEvents s.clk b (s.upcomingByte 0)).reverse ++ s.log } := by
  have h := bitSlots_eq 7 (by omega) (loadByte b s)
  have hb := bitFill_eight (loadByte b s)
  rw [transfer, Config.xferBits, h, hb]
  have hu (k) : (loadByte b s).upcoming k = s.upcoming k := rfl
  have hr (k) (hk : k ∈ List.range 8) : (s.upcomingByte 0).getMsbD k = s.upcoming k := by
    rw [upcomingByte_getMsbD s 0 k (by simpa using hk), Nat.zero_add]
  ext1
  case log =>
    refine congrArg (·.reverse ++ s.log) (List.flatMap_congr fun k hk => ?_)
    rw [hr k hk]
    rfl
  all_goals first | rfl | simp

/-! ### The Register Access Layer -/

/-- A register transaction (R140, R145, R146). -/
theorem registerFrame_eq (a d : Byte) (s : State) : registerFrame a d s =
    { s.advance 16 with
      di := d.getLsbD 0, cs := true, tx := 0#8, rx := s.upcomingByte 8
      log := (registerEvents s.clk a d (s.upcomingByte 0) (s.upcomingByte 8)).reverse ++ s.log } := by
  have h₁ := transfer_eq a (delayUs Config.tSettle (setCS false s))
  have h₂ := transfer_eq d (padWait (transfer a (delayUs Config.tSettle (setCS false s))))
  have hu : (padWait (transfer a (delayUs Config.tSettle (setCS false s)))).upcomingByte 0 = s.upcomingByte 8 := by
    refine upcomingByte_of_advance 8 ?_ ?_ 0 <;> rw [h₁] <;> rfl
  rw [registerFrame, h₂, hu, h₁]
  ext1
  case drawn => simp; omega
  case log => simp [registerEvents, Config.tSettle]; rfl
  all_goals first | rfl | simp

/-- The body of a burst's loop. -/
theorem captureByte_eq (s : State) (j : Fin 12) : captureByte s j =
    { s.advance 8 with
      di := false, tx := 0#8, rx := s.upcomingByte 0, buf := s.buf.set j (s.upcomingByte 0)
      log := (transferEvents s.clk 0x00#8 (s.upcomingByte 0)).reverse ++ s.log } := by
  rw [captureByte, Config.readFill, transfer_eq]
  rfl


/-- The next captured byte extends the captured prefix. -/
theorem capture_extend (b : Vector Byte 12) (f : Nat → Byte) (n : Nat) (hn : n < 12) :
    (Vector.ofFn fun j : Fin 12 => if j.val < n then f j else b[j]).set n (f n) =
      Vector.ofFn fun j : Fin 12 => if j.val < n + 1 then f j else b[j] := by
  refine Vector.ext fun i hi => ?_
  by_cases h : n = i
  · simp [h]
  · have : i < n + 1 ↔ i < n := by omega
    simp only [Vector.getElem_set, h, if_false, Vector.getElem_ofFn, this]

theorem take_burstIndices (n : Nat) (hn : n < 12) :
    burstIndices.take (n + 1) = burstIndices.take n ++ [⟨n, hn⟩] := by
  have : ∀ k : Fin 12, burstIndices.take (k.val + 1) = burstIndices.take k.val ++ [k] := by decide
  exact this ⟨n, hn⟩

/-- The first `n` turns of the loop, after the opcode transfer has left `DI` low and `TX` empty. -/
theorem captures_eq (n : Nat) (hn : n ≤ 12) (s : State) : (burstIndices.take n).foldl captureByte s =
    { s.advance (8 * n) with
      di := if n = 0 then s.di else false
      tx := if n = 0 then s.tx else 0#8
      rx := if n = 0 then s.rx else s.received (n - 1)
      buf := Vector.ofFn fun j => if j.val < n then s.received j else s.buf[j]
      log := ((List.range n).flatMap fun j => transferEvents s.clk 0x00#8 (s.received j)).reverse ++ s.log } := by
  induction n with
  | zero =>
    ext1
    case buf => simp only [Nat.not_lt_zero, if_false]; exact (Vector.ofFn_getElem).symm
    all_goals simp
  | succ n ih =>
    have hu : ((burstIndices.take n).foldl captureByte s).upcomingByte 0 = s.received n := by
      refine upcomingByte_of_advance (8 * n) ?_ ?_ 0 <;> rw [ih (by omega)] <;> rfl
    rw [take_burstIndices n (by omega), List.foldl_append, List.foldl, List.foldl, captureByte_eq, hu, ih (by omega)]
    ext1
    case buf => exact capture_extend s.buf s.received n (by omega)
    case drawn => simp; omega
    case log => simp [List.range_succ]
    all_goals first | rfl | simp
    rfl

theorem burstSettle_eq (s : State) : burstSettle s = { s with
    log := (if s.params.burstSettleUs = 0 then [] else [.wait s.params.burstSettleUs]) ++ s.log } := by
  unfold burstSettle
  split
  · rfl
  · rfl

theorem burstPad_eq (s : State) : burstPad s = { s with
    log := (if s.params.burstPad then [.pad] else []) ++ s.log } := by
  unfold burstPad
  split
  · rfl
  · rfl

/-- A burst up to its first data transfer. -/
def burstOpened (s : State) : State :=
  burstPad (transfer Config.burstOpcode (burstSettle (setCS false s)))

theorem burstOpened_eq (s : State) : burstOpened s =
    { s.advance 8 with
      di := false, cs := false, tx := 0#8, rx := s.received 0
      log := (if s.params.burstPad then [.pad] else []) ++ (transferEvents s.clk 0x80#8 (s.received 0)).reverse
        ++ (if s.params.burstSettleUs = 0 then [] else [.wait s.params.burstSettleUs]) ++ .cs false :: s.log } := by
  rw [burstOpened, burstPad_eq, transfer_eq, burstSettle_eq]
  ext1
  case log =>
    simp only [List.append_assoc]
    rfl
  all_goals rfl

/-- READ_BUFFER (R161, R162, R164). -/
theorem readBuffer_eq (s : State) : readBuffer s =
    { s.advance 104 with
      di := false, cs := true, tx := 0#8, rx := s.received 12, buf := s.capture 1
      log := (burstEvents s.params s.clk (s.received 0) (s.capture 1).toList).reverse ++ s.log } := by
  have hu (m) : (burstOpened s).received m = s.received (m + 1) := by
    rw [State.received, State.received, show 8 * (m + 1) = 8 + 8 * m by omega]
    refine upcomingByte_of_advance 8 ?_ ?_ _ <;> rw [burstOpened_eq] <;> rfl
  have ht := captures_eq 12 (by omega) (burstOpened s)
  simp only [hu] at ht
  have hc : (s.capture 1).toList = (List.range 12).map fun j => s.received (j + 1) := by
    simp [State.capture, List.range, List.range.loop, Vector.toList_ofFn, List.ofFn_succ]
  rw [readBuffer, show burstIndices = burstIndices.take 12 from rfl]
  change setCS true (List.foldl captureByte (burstOpened s) (burstIndices.take 12)) = _
  rw [ht, burstOpened_eq, hc]
  ext1
  case drawn => simp; omega
  case buf => simp [State.capture, Nat.add_comm]
  case log =>
    simp only [burstEvents, setCS_log, List.flatMap_map, List.reverse_append, List.append_assoc]
    split <;> split <;> simp
  all_goals first | rfl | simp

/-! ### The Device Controller -/

theorem writesEvents_cons (e : Byte × Byte) (l : List (Byte × Byte)) (c : Level) (q : Nat → Byte) :
    writesEvents (e :: l) c q =
      registerEvents c (e.1 &&& 0x7F#8) e.2 (q 0) (q 1) ++ writesEvents l c fun m => q (m + 2) := by
  simp only [writesEvents, List.zipIdx_cons', List.flatMap_cons, List.flatMap_map]
  rfl

/-- Register writes one after another: where the lines, the record and the environment are left. -/
theorem writes_eq (l : List (Byte × Byte)) (s : State) : ∃ d x r,
    l.foldl (fun t e => writeRegister e.1 e.2 t) s =
      { s.advance (16 * l.length) with
        di := d, cs := if l = [] then s.cs else true, tx := x, rx := r
        log := (writesEvents l s.clk s.received).reverse ++ s.log } := by
  induction l generalizing s with
  | nil => exact ⟨s.di, s.tx, s.rx, by ext1 <;> simp [writesEvents]⟩
  | cons e l ih =>
    obtain ⟨d, x, r, h⟩ := ih (writeRegister e.1 e.2 s)
    have hw : writeRegister e.1 e.2 s = _ := registerFrame_eq (writeAddressByte e.1) e.2 s
    have hu : (writeRegister e.1 e.2 s).received = fun m => s.received (m + 2) := by
      funext m
      rw [State.received, State.received, show 8 * (m + 2) = 16 + 8 * m by omega]
      refine upcomingByte_of_advance 16 ?_ ?_ _ <;> rw [hw] <;> rfl
    refine ⟨d, x, r, ?_⟩
    rw [List.foldl, h, hu, hw, writesEvents_cons]
    ext1
    case samples => simp [Nat.mul_add, Nat.add_comm]
    case drawn => simp; omega
    case log => simp; rfl
    all_goals first | rfl | simp

/-- The eleven initialisation writes (R172). -/
theorem initWrites_eq (s : State) : ∃ d x r, initWrites s =
    { s.advance 176 with
      di := d, cs := true, tx := x, rx := r
      log := (initEvents s.params s.clk s.received).reverse ++ s.log } := by
  obtain ⟨d, x, r, h⟩ := writes_eq s.params.initSeq.toList s
  refine ⟨d, x, r, ?_⟩
  have hl : s.params.initSeq.toList ≠ [] := by
    intro h0; simpa [h0] using s.params.initSeq.length_toList
  rw [initWrites, h, if_neg hl, Vector.length_toList]
  rfl

/-- NEW up to the self-check, for a valid id (R171 to R173). -/
theorem constructed_eq (id : Byte) (s : State) :
    readBuffer (initWrites (bindLines id (setId id s))) =
      { s.advance 280 with
        di := false, cs := true, clk := s.params.clkInit, tx := 0#8, rx := s.received 34, buf := s.capture 23
        id := id, bound := true
        log := (newEvents s.params id s.received).reverse ++ s.log } := by
  obtain ⟨d, x, r, h⟩ := initWrites_eq (bindLines id (setId id s))
  have hr : (bindLines id (setId id s)).received = s.received := rfl
  have hu (m) : (initWrites (bindLines id (setId id s))).received m = s.received (m + 22) := by
    rw [State.received, State.received, show 8 * (m + 22) = 176 + 8 * m by omega]
    refine upcomingByte_of_advance 176 ?_ ?_ _ <;> rw [h] <;> rfl
  have hc : (initWrites (bindLines id (setId id s))).capture 1 = s.capture 23 := by
    simp only [State.capture, hu]
    congr 1; funext j; congr 1; omega
  have hl : (s.capture 23).toList = (List.range 12).map fun j => s.received (23 + j) := by
    simp [State.capture, List.range, List.range.loop, Vector.toList_ofFn, List.ofFn_succ]
  rw [readBuffer_eq, hc, hu, hu, h, hr, hl]
  ext1
  case drawn => simp; omega
  case log =>
    simp [newEvents]
  all_goals first | rfl | simp

/-- One read of UPDATE (R177). -/
theorem readInto_eq (s : State) (r : Fin 5) : readInto s r =
    { s.advance 16 with
      di := false, cs := true, tx := 0#8, rx := s.received 1, tmp := s.tmp.set r (s.received 1)
      log := (registerEvents s.clk (updateAddr s.params r ||| 0x80#8) 0x00#8 (s.received 0) (s.received 1)).reverse
        ++ s.log } := by
  rw [readInto, readRegister, registerFrame_eq]
  rfl

/-- The five reads of UPDATE (R177, R179). -/
theorem updateReads_eq (s : State) : updateIndices.foldl readInto s =
    { s.advance 80 with
      di := false, cs := true, tx := 0#8, rx := s.received 9, tmp := s.readings
      log := (updateEvents s.params s.clk s.received).reverse ++ s.log } := by
  have hu (t : State) (r : Fin 5) (m) : (readInto t r).received m = t.received (m + 2) := by
    rw [State.received, State.received, show 8 * (m + 2) = 16 + 8 * m by omega]
    refine upcomingByte_of_advance 16 ?_ ?_ _ <;> rw [readInto_eq] <;> rfl
  have hk (t : State) (r : Fin 5) : (readInto t r).clk = t.clk ∧ (readInto t r).params = t.params := by
    rw [readInto_eq]; exact ⟨rfl, rfl⟩
  simp only [updateIndices, List.foldl]
  rw [readInto_eq _ 4]
  simp only [hu, hk]
  rw [readInto_eq _ 3]
  simp only [hu, hk]
  rw [readInto_eq _ 2]
  simp only [hu, hk]
  rw [readInto_eq _ 1]
  simp only [hu, hk]
  rw [readInto_eq _ 0]
  ext1
  case samples => simp
  case drawn => simp; omega
  case log => simp [updateEvents, updateAddr]
  case tmp =>
    refine Vector.ext fun i hi => ?_
    match i, hi with
    | 0, _ | 1, _ | 2, _ | 3, _ | 4, _ => simp [State.readings]
  all_goals rfl

/-- NEW with a valid id, up to the self-check's outcome (R171). -/
theorem construct_eq (id : Byte) (s : State) (h : id ∈ s.params.validIds) : construct id s =
    selfCheck { s.advance 280 with
        di := false, cs := true, clk := s.params.clkInit, tx := 0#8, rx := s.received 34, buf := s.capture 23
        id := id, bound := true
        log := (newEvents s.params id s.received).reverse ++ s.log } := by
  rw [construct, if_pos (by simpa using h), constructed_eq]

/-- NEW with an invalid id (R201). -/
theorem construct_badId (id : Byte) (s : State) (h : id ∉ s.params.validIds) :
    construct id s = raise .configError id s := by
  rw [construct, if_neg (by simpa using h)]
end Sys2Proof.Machine
end

