-- ==== Sys2Proof/Laws/PerInstr.lean ====
section
/-! SUPPORT. Facts about every operation as syntax, one lemma per constructor. -/

namespace Sys2Proof.Laws.FormatLength

/-- The encoding has the length of its format (R90, R102), and the canonical form of the operation is well formed. -/
def Statement (i : Instr) : Prop := (encode i).length = i.format.bytes ∧ i.canon.wf = true

theorem transfer (b : Byte) : Statement (.transfer b) := ⟨rfl, rfl⟩

/-- Clearing bit 7 leaves an address of the effective range (R60). -/
theorem canonAddr_msb (a : Byte) : (canonAddr a).msb = false := by
  simp only [canonAddr, BitVec.msb_and]
  exact Bool.and_false _

theorem readRegister (a : Byte) : Statement (.readRegister a) :=
  ⟨rfl, by simp [Instr.canon, Instr.wf, canonAddr_msb]⟩

theorem writeRegister (a v : Byte) : Statement (.writeRegister a v) :=
  ⟨rfl, by simp [Instr.canon, Instr.wf, canonAddr_msb]⟩

theorem readBuffer : Statement .readBuffer := ⟨rfl, rfl⟩

theorem new (id : Byte) : Statement (.new id) := ⟨rfl, rfl⟩

theorem update : Statement .update := ⟨rfl, rfl⟩

theorem getData : Statement .getData := ⟨rfl, rfl⟩

theorem getFrequency : Statement .getFrequency := ⟨rfl, rfl⟩

theorem destroy : Statement .destroy := ⟨rfl, rfl⟩

end Sys2Proof.Laws.FormatLength
end

