-- ==== Sys2Proof/Laws/Responder.lean ====
section
/-! SUPPORT. The reference responder over the events of one transfer (D18). -/

namespace Sys2Proof.Machine

theorem follows_append (r : Responder) (a b : List LineEvent) :
    r.follows (a ++ b) = (r.follows a).bind (·.follows b) := by
  induction a generalizing r with
  | nil => rfl
  | cons e a ih => simp only [List.cons_append, Responder.follows]; cases r.react e <;> simp [ih]

/-- The events of slot k of a transfer. -/
def slotEvents (c : Level) (b q : Byte) (k : Nat) : List LineEvent :=
  [.di (b.getMsbD k), .ck !c, .sample (q.getMsbD k), .ck c]

/-- A byte shifted in, up to slot n. -/
def shiftedIn (x b : Byte) (n : Nat) : Byte :=
  (List.range n).foldl (fun (a : Byte) k => (a <<< 1) ||| (if b.getMsbD k then 0x01#8 else 0x00#8)) x

/-- Eight levels shifted into a byte, the first into bit 7, leave nothing of what it held. -/
theorem shiftedIn_byte (x b : Byte) : shiftedIn x b 8 = b := by
  simp only [shiftedIn, List.range, List.range.loop, List.foldl_cons, List.foldl_nil]
  refine BitVec.eq_of_getLsbD_eq fun i hi => ?_
  have h1 (c : Bool) (j : Nat) : (if c then 1#8 else 0#8).getLsbD j = (c && decide (j = 0)) := by
    cases c <;> simp
  simp only [BitVec.getLsbD_or, BitVec.getLsbD_shiftLeft, h1, BitVec.getMsbD_eq_getLsbD]
  match i, hi with
  | 0, _ | 1, _ | 2, _ | 3, _ | 4, _ | 5, _ | 6, _ | 7, _ => simp

/-- The first n < 8 slots of a byte: each sample is a bit of `out`, and `DI` is shifted in (D18). -/
theorem follows_slots (r : Responder) (c : Level) (b q : Byte) (hh : r.half = false) (hs : r.slot = 0) (n : Nat)
    (hn : n < 8) : r.follows ((List.range n).flatMap (slotEvents c b q)) =
      if ∀ k, k < n → q.getMsbD k = r.out.getMsbD k then
        some { r with di := if n = 0 then r.di else b.getMsbD (n - 1), shiftIn := shiftedIn r.shiftIn b n, slot := n }
      else none := by
  induction n with
  | zero => cases r; cases hs; simp [Responder.follows, shiftedIn]
  | succ n ih =>
    rw [List.range_succ, List.flatMap_append, follows_append, ih (by omega)]
    by_cases hk : ∀ k, k < n → q.getMsbD k = r.out.getMsbD k
    · rw [if_pos hk, Option.bind_some]
      by_cases hl : q.getMsbD n = r.out.getMsbD n
      · have : ∀ k, k < n + 1 → q.getMsbD k = r.out.getMsbD k := fun k h => by
          rcases Nat.lt_succ_iff_lt_or_eq.mp h with h | rfl
          · exact hk k h
          · exact hl
        rw [if_pos this]
        simp [slotEvents, Responder.follows, Responder.react, Responder.answer, hh, hl, show n ≠ 7 by omega, shiftedIn,
          List.range_succ]
      · have : ¬ ∀ k, k < n + 1 → q.getMsbD k = r.out.getMsbD k := fun h => hl (h n (by omega))
        rw [if_neg this]
        simp [slotEvents, Responder.follows, Responder.react, Responder.answer, hh, hl]
    · rw [if_neg hk, if_neg (fun h => hk fun k hk => h k (by omega))]
      rfl

/-- A whole byte: the premise is that the byte received is `out`; then the byte sent has completed (D18). -/
theorem follows_transfer (r : Responder) (c : Level) (b q : Byte) (hh : r.half = false) (hs : r.slot = 0) :
    r.follows (transferEvents c b q) =
      if q = r.out then some (Responder.byteDone { r with di := b.getLsbD 0, shiftIn := b }) else none := by
  have e : transferEvents c b q = (List.range 7).flatMap (slotEvents c b q) ++ slotEvents c b q 7 := by
    simp [transferEvents, slotEvents, List.range, List.range.loop]
  rw [e, follows_append, follows_slots r c b q hh hs 7 (by omega)]
  by_cases hk : ∀ k, k < 7 → q.getMsbD k = r.out.getMsbD k
  · rw [if_pos hk, Option.bind_some]
    by_cases hl : q.getMsbD 7 = r.out.getMsbD 7
    · have hq : q = r.out := BitVec.eq_of_getMsbD_eq fun k h => by
        rcases Nat.lt_succ_iff_lt_or_eq.mp h with h | rfl
        · exact hk k h
        · exact hl
      have hb : (shiftedIn r.shiftIn b 7 <<< 1) ||| (if b.getMsbD 7 then 0x01#8 else 0x00#8) = b := by
        conv => rhs; rw [← shiftedIn_byte r.shiftIn b]
        simp only [shiftedIn, List.range_succ, List.foldl_append, List.foldl_cons, List.foldl_nil]
      have hd : b.getMsbD 7 = b.getLsbD 0 := by simp [BitVec.getMsbD_eq_getLsbD]
      rw [if_pos hq]
      simp only [slotEvents, Responder.follows, Responder.react, Responder.answer, hh, hl, hb, Bool.false_eq_true,
        if_false, if_true]
      rw [hd, ← hs, ← hh]
    · have hq : ¬ q = r.out := fun h => hl (by rw [h])
      rw [if_neg hq]
      simp [slotEvents, Responder.follows, Responder.react, Responder.answer, hh, hl]
  · rw [if_neg hk, if_neg (fun h => hk fun k _ => by rw [h])]
    rfl

end Sys2Proof.Machine
end

