-- ==== Sys2Proof/Laws/Safety.lean ====
section
/-! SUPPORT. What the frame monitor makes of the closed-form traces (R104). -/

namespace Sys2Proof.Machine

theorem watch_append (m : Monitor) (a b) : m.watch (a ++ b) = (m.watch a).bind (·.watch b) := by
  induction a generalizing m with
  | nil => rfl
  | cons e a ih => simp only [List.cons_append, Monitor.watch]; cases m.see e <;> simp [ih]
theorem watch_transfer (c b r l) :
    (⟨.slotStart, l⟩ : Monitor).watch (transferEvents c b r) = some ⟨.slotStart, (wireBits b).reverse ++ l⟩ := by
  simp [transferEvents, List.range, List.range.loop, Monitor.watch, Monitor.see, wireBits]
theorem watch_register (c a d q r) (h : legalFrame (wireBits a ++ wireBits d) = true) :
    Monitor.start.watch (registerEvents c a d q r) = some Monitor.start := by
  have hl (b) : (wireBits b).length = 8 := by simp [wireBits]
  simp [registerEvents, Monitor.start, Monitor.watch, watch_append, watch_transfer, Monitor.see, hl, h]
theorem legalFrame_write (a v : Byte) : legalFrame (wireBits (a &&& 0x7f#8) ++ wireBits v) = true := by
  have hl (b) : (wireBits b).length = 8 := by simp [wireBits]
  simp only [legalFrame, List.length_append, hl]
  have : (wireBits (a &&& 127#8) ++ wireBits v).head? = some false := by
    simp only [wireBits, List.range, List.range.loop, List.map_cons, List.cons_append, List.head?_cons]
    congr 1; revert a; decide
  simp [this]
theorem legalFrame_read (a : Byte) : legalFrame (wireBits (a ||| 0x80#8) ++ wireBits 0#8) = true := by
  have hl (b) : (wireBits b).length = 8 := by simp [wireBits]
  simp only [legalFrame, List.length_append, hl]
  simp [hl]
  left; right; simp [wireBits]
theorem watch_writes (l c q) : Monitor.start.watch (writesEvents l c q) = some Monitor.start := by
  induction l generalizing q with
  | nil => rfl
  | cons a l ih => rw [writesEvents_cons, watch_append, watch_register _ _ _ _ _ (legalFrame_write _ _)]; exact ih _
theorem watch_fills (c) (q : List Byte) (l) :
    (⟨.slotStart, l⟩ : Monitor).watch (q.flatMap (transferEvents c 0#8)) = some ⟨.slotStart, List.replicate (8 * q.length) false ++ l⟩ := by
  induction q generalizing l with
  | nil => rfl
  | cons a q ih =>
    rw [List.flatMap_cons, watch_append, watch_transfer]; simp [ih]
    have : (wireBits 0#8).reverse = List.replicate 8 false := by decide
    rw [this, ← List.append_assoc, List.replicate_append_replicate]; congr 1
theorem watch_burst (p : Params) (c q0) (q : List Byte) (hq : q.length = 12) :
    Monitor.start.watch (burstEvents p c q0 q) = some Monitor.start := by
  have e1 : (wireBits 0x80#8).reverse = List.replicate 7 false ++ [true] := by decide
  have hlf : legalFrame ((List.replicate (8 * 12) false ++ (List.replicate 7 false ++ [true])).reverse) = true := by decide
  simp only [burstEvents, watch_append]
  split <;> split <;> simp [Monitor.start, Monitor.watch, Monitor.see, watch_transfer, watch_fills, hq, e1] <;> decide
theorem watch_new (p id q) : Monitor.start.watch (newEvents p id q) = some Monitor.start := by
  rw [newEvents, List.cons_append, Monitor.watch]
  show Monitor.start.watch _ = _
  rw [watch_append, initEvents, watch_writes]; exact watch_burst _ _ _ _ (by simp)
theorem watch_update (p c q) : Monitor.start.watch (updateEvents p c q) = some Monitor.start := by
  simp only [updateEvents, watch_append, watch_register _ _ _ _ _ (legalFrame_read _), Option.bind]

end Sys2Proof.Machine
end

