-- ==== Sys2Proof/Laws/Sequencer.lean ====
section
/-! SUPPORT. What the sequencer does over a bit slot, a transfer, a register transaction, a burst and a whole
construction: how many of its steps each takes, and that it ends where the operations of Ops.lean end. -/

namespace Sys2Proof.Machine

theorem seqRun_add (m n : Nat) (s : State) : seqRun (m + n) s = seqRun n (seqRun m s) := by
  induction m generalizing s with
  | zero => rw [Nat.zero_add]; rfl
  | succ m ih => rw [show m + 1 + n = (m + n) + 1 by omega, seqRun, seqRun, ih]

/-- An idle block does not move (R231). -/
theorem seqRun_idle (n : Nat) (s : State) (h : s.seq = .idle) : seqRun n s = s := by
  induction n with
  | zero => rfl
  | succ n ih =>
    have : seqStep s = s := by unfold seqStep; rw [h]
    rw [seqRun, this, ih]

/-! Moving the sequencer commutes with what the data path does. -/

theorem goto_goto (s : State) (p q : Seq) : (s.goto p).goto q = s.goto q := rfl

theorem stepSample_goto (s : State) (q : Seq) : stepSample (s.goto q) = (stepSample s).goto q := by
  rw [stepSample_eq, stepSample_eq]; rfl

theorem bitSlot_goto (s : State) (q : Seq) : bitSlot (s.goto q) = (bitSlot s).goto q := by
  rw [bitSlot_eq, bitSlot_eq]; rfl

theorem bitSlots_goto (n : Nat) (s : State) (q : Seq) : bitSlots n (s.goto q) = (bitSlots n s).goto q := by
  induction n generalizing s with
  | zero => rfl
  | succ n ih => rw [bitSlots, bitSlots, bitSlot_goto, ih]

theorem bitSlots_params (n : Nat) (s : State) : (bitSlots n s).params = s.params := by
  induction n generalizing s with
  | zero => rfl
  | succ n ih => rw [bitSlots, ih, bitSlot_eq]; rfl

theorem transfer_goto (b : Byte) (s : State) (q : Seq) : transfer b (s.goto q) = (transfer b s).goto q :=
  bitSlots_goto 8 (loadByte b s) q

theorem transfer_params (b : Byte) (s : State) : (transfer b s).params = s.params := bitSlots_params 8 (loadByte b s)

/-! ### A transfer -/

/-- `C x` are the positions where a block with parameters `p` runs a transfer of `b`, and `e` is the one after it. -/
def RunsTransfer (p : Params) (b : Byte) (C : XferPos → Seq) (e : Seq) : Prop :=
  ∀ (t : State) (x : XferPos), t.params = p → t.seq = C x →
    seqStep t = match xferStep b x t with
      | (u, some y) => u.goto (C y)
      | (u, none) => u.goto e

theorem RunsTransfer.step {p : Params} {b : Byte} {C : XferPos → Seq} {e : Seq} (h : RunsTransfer p b C e) (u : State)
    (x : XferPos) (hu : u.params = p) : seqStep (u.goto (C x)) = match xferStep b x (u.goto (C x)) with
      | (v, some y) => v.goto (C y)
      | (v, none) => v.goto e := h (u.goto (C x)) x hu rfl

/-- One bit slot takes seven steps. -/
theorem slot_run {p : Params} {b : Byte} {C : XferPos → Seq} {e : Seq} (h : RunsTransfer p b C e) (s : State)
    (k : Fin 8) (hp : s.params = p) : seqRun 7 (s.goto (C (.slot k .drive))) =
    (bitSlot s).goto (if hk : k.val + 1 < 8 then C (.slot ⟨k.val + 1, hk⟩ .drive) else e) := by
  have h₁ : seqStep (s.goto (C (.slot k .drive))) = (stepDrive s).goto (C (.slot k .shiftTx)) := h.step s _ hp
  have h₂ (u : State) (hu : u.params = p) :
      seqStep (u.goto (C (.slot k .shiftTx))) = (shiftTx u).goto (C (.slot k .shiftRx)) := h.step u _ hu
  have h₃ (u : State) (hu : u.params = p) :
      seqStep (u.goto (C (.slot k .shiftRx))) = (shiftRx u).goto (C (.slot k .edge1)) := h.step u _ hu
  have h₄ (u : State) (hu : u.params = p) :
      seqStep (u.goto (C (.slot k .edge1))) = (toggleCLK u).goto (C (.slot k .sample)) := h.step u _ hu
  have h₅ (u : State) (hu : u.params = p) :
      seqStep (u.goto (C (.slot k .sample))) = (getDO u).goto (C (.slot k (.store (u.upcoming 0)))) :=
    h.step u _ hu
  have h₆ (u : State) (v : Level) (hu : u.params = p) :
      seqStep (u.goto (C (.slot k (.store v)))) = (storeBit v u).goto (C (.slot k .edge2)) := h.step u _ hu
  have h₇ (u : State) (hu : u.params = p) : seqStep (u.goto (C (.slot k .edge2))) =
      (toggleCLK u).goto (if hk : k.val + 1 < 8 then C (.slot ⟨k.val + 1, hk⟩ .drive) else e) := by
    rw [h.step u _ hu, xferStep]
    split <;> rename_i hx <;> split at hx <;> cases hx
    · rw [dif_pos ‹_›]; rfl
    · rw [dif_neg ‹_›]; rfl
  simp only [seqRun]
  rw [h₁, h₂ (stepDrive s) hp, h₃ (shiftTx (stepDrive s)) hp, h₄ (shiftRx (shiftTx (stepDrive s))) hp,
    h₅ (toggleCLK (shiftRx (shiftTx (stepDrive s)))) hp, h₆ (getDO (toggleCLK (shiftRx (shiftTx (stepDrive s))))) _ hp,
    h₇ (storeBit _ (getDO (toggleCLK (shiftRx (shiftTx (stepDrive s)))))) hp]
  rfl

/-- A transfer takes 58 steps (R121). -/
theorem transfer_run {p : Params} {b : Byte} {C : XferPos → Seq} {e : Seq} (h : RunsTransfer p b C e) (s : State)
    (hp : s.params = p) : seqRun 58 (s.goto (C .first)) = (transfer b s).goto e := by
  have key (n : Nat) (hn : n < 8) (u : State) (hu : u.params = p) :
      seqRun (7 * n) (u.goto (C (.slot 0 .drive))) = (bitSlots n u).goto (C (.slot ⟨n, hn⟩ .drive)) := by
    induction n with
    | zero => rfl
    | succ n ih =>
      rw [show 7 * (n + 1) = 7 * n + 7 by omega, seqRun_add, ih (by omega),
        slot_run h (bitSlots n u) ⟨n, by omega⟩ ((bitSlots_params n u).trans hu), dif_pos hn, ← bitSlots_succ]
  have h₁ : seqRun 1 (s.goto (C .first)) = (loadTx b s).goto (C .clearRx) := h.step s _ hp
  have h₂ : seqRun 1 ((loadTx b s).goto (C .clearRx)) = (loadByte b s).goto (C (.slot 0 .drive)) :=
    h.step (loadTx b s) _ hp
  rw [show 58 = (1 + 1) + (7 * 7 + 7) by decide, seqRun_add, seqRun_add, seqRun_add, h₁, h₂,
    key 7 (by omega) (loadByte b s) hp,
    slot_run h (bitSlots 7 (loadByte b s)) ⟨7, by omega⟩ ((bitSlots_params 7 (loadByte b s)).trans hp),
    dif_neg (by decide), ← bitSlots_succ]
  rfl

/-! ### A register transaction -/

/-- `C q` are the positions where the sequencer runs a register transaction, and `e` the one after it. -/
def RunsFrame (p : Params) (a d : Byte) (C : RegPos → Seq) (e : Seq) : Prop :=
  ∀ (t : State) (q : RegPos), t.params = p → t.seq = C q →
    seqStep t = match regStep a d q t with
      | (u, some y) => u.goto (C y)
      | (u, none) => u.goto e

theorem RunsFrame.step {p : Params} {a d : Byte} {C : RegPos → Seq} {e : Seq} (h : RunsFrame p a d C e) (u : State)
    (x : RegPos) (hu : u.params = p) : seqStep (u.goto (C x)) = match regStep a d x (u.goto (C x)) with
      | (v, some y) => v.goto (C y)
      | (v, none) => v.goto e := h (u.goto (C x)) x hu rfl

theorem RunsFrame.addrPhase {p : Params} {a d : Byte} {C : RegPos → Seq} {e : Seq} (h : RunsFrame p a d C e) :
    RunsTransfer p a (fun x => C (.addrPhase x)) (C .pad) := by
  intro t x hp hs
  rw [h t _ hp hs, regStep]
  cases xferStep a x t with
  | mk u y => cases y <;> rfl

theorem RunsFrame.dataPhase {p : Params} {a d : Byte} {C : RegPos → Seq} {e : Seq} (h : RunsFrame p a d C e) :
    RunsTransfer p d (fun x => C (.dataPhase x)) (C .deassert) := by
  intro t x hp hs
  rw [h t _ hp hs, regStep]
  cases xferStep d x t with
  | mk u y => cases y <;> rfl

/-- A register transaction takes 120 steps (R140). -/
theorem frame_run {p : Params} {a d : Byte} {C : RegPos → Seq} {e : Seq} (h : RunsFrame p a d C e) (s : State)
    (hp : s.params = p) : seqRun 120 (s.goto (C .assert)) = (registerFrame a d s).goto e := by
  have h₁ : seqRun 1 (s.goto (C .assert)) = (setCS false s).goto (C .settle) := h.step s _ hp
  have h₂ : seqRun 1 ((setCS false s).goto (C .settle)) =
      (delayUs Config.tSettle (setCS false s)).goto (C (.addrPhase .first)) := h.step (setCS false s) _ hp
  have h₃ := transfer_run h.addrPhase (delayUs Config.tSettle (setCS false s)) hp
  have hu : (transfer a (delayUs Config.tSettle (setCS false s))).params = p := (transfer_params _ _).trans hp
  have hf : registerFrame a d s =
      setCS true (transfer d (padWait (transfer a (delayUs Config.tSettle (setCS false s))))) := rfl
  rw [hf]
  generalize transfer a (delayUs Config.tSettle (setCS false s)) = u at h₃ hu ⊢
  have h₄ : seqRun 1 (u.goto (C .pad)) = (padWait u).goto (C (.dataPhase .first)) := h.step u _ hu
  have h₅ := transfer_run h.dataPhase (padWait u) hu
  have hv : (transfer d (padWait u)).params = p := (transfer_params _ _).trans hu
  generalize transfer d (padWait u) = v at h₅ hv ⊢
  have h₆ : seqRun 1 (v.goto (C .deassert)) = (setCS true v).goto e := h.step v _ hv
  rw [show 120 = 1 + (1 + (58 + (1 + (58 + 1)))) by decide, seqRun_add, seqRun_add, seqRun_add, seqRun_add, seqRun_add,
    h₁, h₂, h₃, h₄, h₅, h₆]

/-! ### The transactions of NEW and UPDATE -/

theorem registerFrame_goto (a d : Byte) (s : State) (q : Seq) :
    registerFrame a d (s.goto q) = (registerFrame a d s).goto q := by
  simp only [registerFrame_eq]; rfl
theorem registerFrame_params (a d : Byte) (s : State) : (registerFrame a d s).params = s.params := by
  rw [registerFrame_eq]; rfl

/-- The n-th write of NEW is a register transaction (R172). -/
theorem newWrite_runs (p : Params) (n : Fin 11) :
    RunsFrame p (writeAddressByte p.initSeq[n].1) p.initSeq[n].2 (.newWrite n) (afterWrite n) := by
  intro t q hp hs
  subst hp
  unfold seqStep
  rw [hs] <;> rfl

/-- The r-th read of UPDATE is a register transaction (R177). -/
theorem updateRead_runs (p : Params) (r : Fin 5) :
    RunsFrame p (readAddressByte (updateAddr p r)) Config.readFill (.updateRead r) (.updateStore r) := by
  intro t q hp hs
  subst hp
  unfold seqStep
  rw [hs] <;> rfl

/-- The eleven writes take 1320 steps. -/
theorem writes_run (s : State) :
    seqRun 1320 (s.goto (.newWrite 0 .assert)) = (initWrites s).goto (.newBurst .assert) := by
  have key (n : Nat) (hn : n ≤ 11) : seqRun (120 * n) (s.goto (.newWrite 0 .assert)) =
      ((s.params.initSeq.toList.take n).foldl (fun t e => writeRegister e.1 e.2 t) s).goto
        (if h : n < 11 then .newWrite ⟨n, h⟩ .assert else .newBurst .assert) ∧
      ((s.params.initSeq.toList.take n).foldl (fun t e => writeRegister e.1 e.2 t) s).params = s.params := by
    induction n with
    | zero => exact ⟨rfl, rfl⟩
    | succ n ih =>
      obtain ⟨h₁, h₂⟩ := ih (by omega)
      have hl : n < s.params.initSeq.toList.length := by simp; omega
      rw [List.take_add_one, List.getElem?_eq_getElem hl]
      simp only [Option.toList, List.foldl_append, List.foldl_cons, List.foldl_nil]
      generalize (s.params.initSeq.toList.take n).foldl (fun t e => writeRegister e.1 e.2 t) s = u at h₁ h₂ ⊢
      refine ⟨?_, by rw [writeRegister, registerFrame_params, h₂]⟩
      rw [show 120 * (n + 1) = 120 * n + 120 by omega, seqRun_add, h₁, dif_pos (by omega : n < 11),
        frame_run (newWrite_runs s.params ⟨n, by omega⟩) u h₂]
      simp [writeRegister, afterWrite]
  have := (key 11 (by omega)).1
  rw [List.take_of_length_le (by simp)] at this
  exact this

/-- One read of UPDATE takes 121 steps, the last of them writing `T[r]`. -/
theorem read_run (s : State) (r : Fin 5) :
    seqRun 121 (s.goto (.updateRead r .assert)) = (readInto s r).goto (afterRead r) := by
  have h := frame_run (updateRead_runs s.params r) s rfl
  have hr : readInto s r = storeTmp r (registerFrame (readAddressByte (updateAddr s.params r)) Config.readFill s) := rfl
  rw [show 121 = 120 + 1 by decide, seqRun_add, h, hr]
  generalize registerFrame (readAddressByte (updateAddr s.params r)) Config.readFill s = u
  rfl

/-- The five reads of UPDATE take 605 steps (R177). -/
theorem reads_run (s : State) :
    seqRun 605 (s.goto (.updateRead 0 .assert)) = (updateIndices.foldl readInto s).goto .updateCommit := by
  have hf : updateIndices.foldl readInto s = readInto (readInto (readInto (readInto (readInto s 0) 1) 2) 3) 4 := rfl
  rw [hf, show 605 = 121 + (121 + (121 + (121 + 121))) by decide, seqRun_add, seqRun_add, seqRun_add, seqRun_add,
    read_run s 0, show afterRead 0 = .updateRead 1 .assert from rfl, read_run _ 1,
    show afterRead 1 = .updateRead 2 .assert from rfl, read_run _ 2, show afterRead 2 = .updateRead 3 .assert from rfl,
    read_run _ 3, show afterRead 3 = .updateRead 4 .assert from rfl, read_run _ 4]
  generalize readInto (readInto (readInto (readInto (readInto s 0) 1) 2) 3) 4 = u
  rfl

/-! ### A burst -/

/-- `C q` are the positions where the sequencer runs a burst, and `e` the one after it. -/
def RunsBurst (p : Params) (C : BufPos → Seq) (e : Seq) : Prop :=
  ∀ (t : State) (q : BufPos), t.params = p → t.seq = C q →
    seqStep t = match bufStep q t with
      | (u, some y) => u.goto (C y)
      | (u, none) => u.goto e

theorem RunsBurst.step {p : Params} {C : BufPos → Seq} {e : Seq} (h : RunsBurst p C e) (u : State)
    (x : BufPos) (hu : u.params = p) : seqStep (u.goto (C x)) = match bufStep x (u.goto (C x)) with
      | (v, some y) => v.goto (C y)
      | (v, none) => v.goto e := h (u.goto (C x)) x hu rfl

/-- No step of a transfer changes the parameters. -/
theorem xferStep_params (b : Byte) (x : XferPos) (s : State) : (xferStep b x s).1.params = s.params := by
  unfold xferStep; split <;> rfl

theorem RunsBurst.opcode {p : Params} {C : BufPos → Seq} {e : Seq} (h : RunsBurst p C e) :
    RunsTransfer p Config.burstOpcode (fun x => C (.opcode x)) (C (if p.burstPad then .pad else .data 0 .first)) := by
  intro t x hp hs
  have hq := xferStep_params Config.burstOpcode x t
  rw [h t _ hp hs, bufStep]
  cases hx : xferStep Config.burstOpcode x t with
  | mk u y =>
    rw [hx] at hq
    cases y
    · simp only; rw [hp]
    · rfl

theorem RunsBurst.data {p : Params} {C : BufPos → Seq} {e : Seq} (h : RunsBurst p C e) (j : Fin 12) :
    RunsTransfer p Config.readFill (fun x => C (.data j x)) (C (.store j)) := by
  intro t x hp hs
  rw [h t _ hp hs, bufStep]
  cases xferStep Config.readFill x t with
  | mk u y => cases y <;> rfl

theorem captureByte_params (u : State) (j : Fin 12) : (captureByte u j).params = u.params := by
  rw [captureByte_eq]; rfl

/-- One captured byte takes 59 steps, the last of them writing `BUF[j]`. -/
theorem capture_run {p : Params} {C : BufPos → Seq} {e : Seq} (h : RunsBurst p C e) (u : State) (hp : u.params = p)
    (j : Fin 12) : seqRun 59 (u.goto (C (.data j .first))) =
      (captureByte u j).goto (C (if hj : j.val + 1 < 12 then .data ⟨j.val + 1, hj⟩ .first else .deassert)) := by
  have hr := transfer_run (h.data j) u hp
  have hv : (transfer Config.readFill u).params = p := (transfer_params _ _).trans hp
  have hc : captureByte u j = storeBuf j (transfer Config.readFill u) := rfl
  rw [show 59 = 58 + 1 by decide, seqRun_add, hr, hc]
  generalize transfer Config.readFill u = v at hv ⊢
  exact h.step v _ hv

/-- The twelve captured bytes take 708 steps (R161). -/
theorem captures_run {p : Params} {C : BufPos → Seq} {e : Seq} (h : RunsBurst p C e) (u : State) (hp : u.params = p) :
    seqRun 708 (u.goto (C (.data 0 .first))) = (burstIndices.foldl captureByte u).goto (C .deassert) := by
  have key (n : Nat) (hn : n < 12) : seqRun (59 * n) (u.goto (C (.data 0 .first))) =
      ((burstIndices.take n).foldl captureByte u).goto (C (.data ⟨n, hn⟩ .first)) ∧
      ((burstIndices.take n).foldl captureByte u).params = p := by
    induction n with
    | zero => exact ⟨rfl, hp⟩
    | succ n ih =>
      obtain ⟨h₁, h₂⟩ := ih (by omega)
      have hi : burstIndices.take (n + 1) = burstIndices.take n ++ [⟨n, by omega⟩] := take_burstIndices n (by omega)
      rw [hi, List.foldl_append]
      simp only [List.foldl_cons, List.foldl_nil]
      generalize (burstIndices.take n).foldl captureByte u = v at h₁ h₂ ⊢
      refine ⟨?_, by rw [captureByte_params, h₂]⟩
      rw [show 59 * (n + 1) = 59 * n + 59 by omega, seqRun_add, h₁, capture_run h v h₂, dif_pos (by simpa using hn)]
  obtain ⟨h₁, h₂⟩ := key 11 (by omega)
  rw [show 708 = 59 * 11 + 59 by decide, seqRun_add, h₁, capture_run h _ h₂, dif_neg (by simp)]
  have hi : burstIndices = burstIndices.take 11 ++ [⟨11, by omega⟩] := rfl
  conv => rhs; rw [hi, List.foldl_append]
  rfl

/-- The steps of a burst. -/
def burstSteps (p : Params) : Nat := 768 + (if p.burstSettleUs = 0 then 0 else 1) + (if p.burstPad then 1 else 0)

/-- The sequencer runs a burst (R161). -/
theorem burst_run {p : Params} {C : BufPos → Seq} {e : Seq} (h : RunsBurst p C e) (s : State) (hp : s.params = p) :
    seqRun (burstSteps p) (s.goto (C .assert)) = (readBuffer s).goto e := by
  subst hp
  have open_run : seqRun (1 + if s.params.burstSettleUs = 0 then 0 else 1) (s.goto (C .assert)) =
      (burstSettle (setCS false s)).goto (C (.opcode .first)) := by
    have h₀ : seqRun 1 (s.goto (C .assert)) =
        (setCS false s).goto (C (if s.params.burstSettleUs = 0 then .opcode .first else .settle)) :=
      h.step s _ rfl
    unfold burstSettle
    rw [setCS_params, seqRun_add, h₀]
    by_cases hz : s.params.burstSettleUs = 0
    · rw [if_pos hz, if_pos hz, if_pos hz]; rfl
    · rw [if_neg hz, if_neg hz, if_neg hz]
      exact h.step (setCS false s) .settle rfl
  have hr : readBuffer s = setCS true (burstIndices.foldl captureByte
      (burstPad (transfer Config.burstOpcode (burstSettle (setCS false s))))) := rfl
  have hu : (burstSettle (setCS false s)).params = s.params := by rw [burstSettle_eq]; rfl
  rw [hr]
  generalize burstSettle (setCS false s) = u at open_run hu ⊢
  have op_run := transfer_run h.opcode u hu
  have hv : (transfer Config.burstOpcode u).params = s.params := (transfer_params _ _).trans hu
  generalize transfer Config.burstOpcode u = v at op_run hv ⊢
  have pad_run : seqRun (58 + if s.params.burstPad then 1 else 0) (u.goto (C (.opcode .first))) =
      (burstPad v).goto (C (.data 0 .first)) := by
    unfold burstPad
    rw [seqRun_add, op_run, hv]
    by_cases hb : s.params.burstPad = true
    · rw [if_pos hb, if_pos hb, if_pos hb]
      exact h.step v .pad hv
    · rw [if_neg hb, if_neg hb, if_neg hb]
      rfl
  have hw : (burstPad v).params = s.params := by rw [burstPad_eq]; exact hv
  generalize burstPad v = w at pad_run hw ⊢
  have data_run := captures_run h w hw
  have hx : (burstIndices.foldl captureByte w).params = s.params := by
    have := captures_eq 12 (by omega) w
    rw [show burstIndices.take 12 = burstIndices from rfl] at this
    rw [this]; exact hw
  generalize burstIndices.foldl captureByte w = x at data_run hx ⊢
  have end_run : seqRun 1 (x.goto (C .deassert)) = (setCS true x).goto e := h.step x .deassert hx
  rw [show burstSteps s.params = (1 + if s.params.burstSettleUs = 0 then 0 else 1) +
    ((58 + if s.params.burstPad then 1 else 0) + (708 + 1)) by unfold burstSteps; omega,
    seqRun_add, open_run, seqRun_add, pad_run, seqRun_add, data_run, end_run]

/-- The burst of NEW (R173). -/
theorem newBurst_runs (p : Params) : RunsBurst p .newBurst .newSelfCheck := by
  intro t q hp hs
  unfold seqStep
  rw [hs] <;> rfl

/-! ### NEW -/

/-- The steps of NEW with a valid id. -/
def newSteps (p : Params) : Nat := 1 + (1 + (1320 + (burstSteps p + 1)))

/-- NEW up to its self-check (R171 to R173). -/
theorem newStages_run (id : Byte) (s : State) (hb : s.params.backend = .real) (hv : id ∈ s.params.validIds) :
    seqRun (1 + (1 + (1320 + burstSteps s.params))) (s.goto (.newCheckId id)) =
      (readBuffer (initWrites (bindLines id (setId id s)))).goto .newSelfCheck := by
  have h₀ : seqStep (s.goto (.newCheckId id)) = (setId id s).goto .newBind := by
    unfold seqStep; simp [hb, hv]; rfl
  have h₁ : seqRun 1 (s.goto (.newCheckId id)) = (setId id s).goto .newBind := h₀
  have h₂ : seqRun 1 ((setId id s).goto .newBind) = (bindLines id (setId id s)).goto (.newWrite 0 .assert) := rfl
  have hp₀ : (bindLines id (setId id s)).params = s.params := rfl
  generalize bindLines id (setId id s) = b at h₂ hp₀ ⊢
  have hp : (initWrites b).params = s.params := by
    obtain ⟨_, _, _, h⟩ := initWrites_eq b; rw [h]; exact hp₀
  rw [seqRun_add, h₁, seqRun_add, h₂, seqRun_add, writes_run,
    burst_run (newBurst_runs s.params) _ hp]

/-- The self-check is the last step of NEW (R174, R175). -/
theorem selfCheck_step (s : State) : seqStep (s.goto .newSelfCheck) = (selfCheck s).goto .idle := by
  show (selfCheck (s.goto .newSelfCheck)).goto .idle = _
  unfold selfCheck
  show (if s.buf[0] = _ then _ else _ : State).goto _ = _
  by_cases hz : s.buf[0] = Config.sentinel
  · rw [if_pos hz, if_pos hz]; rfl
  · rw [if_neg hz, if_neg hz]; rfl

/-- NEW with the real backend and a valid id: the sequencer ends where `construct` does, after the same number of steps
whatever the samples are (R171, R250). -/
theorem new_run (id : Byte) (s : State) (hb : s.params.backend = .real) (hv : id ∈ s.params.validIds) :
    seqRun (newSteps s.params) (s.goto (.newCheckId id)) = (construct id s).goto .idle := by
  have hc : construct id s = selfCheck (readBuffer (initWrites (bindLines id (setId id s)))) := by
    simp [construct, hv]
  rw [hc, show newSteps s.params = (1 + (1 + (1320 + burstSteps s.params))) + 1 by unfold newSteps; omega, seqRun_add,
    newStages_run id s hb hv]
  exact selfCheck_step _

end Sys2Proof.Machine
end

