-- ==== Sys2Proof/Laws/Step.lean ====
section
/-! SUPPORT. Everything a step can do, and what a step of the sequencer's data path leaves alone. -/

namespace Sys2Proof.Machine

/-- A step that answers a next state is a reset, a command begun by an idle block, an operation run whole by an idle
block, a reserved code refused, a wait, or a step of the running command. -/
theorem step_next_cases {s t : State} (h : step s = .next t) :
    (∃ rest, s.pending = .reset :: rest ∧ t = resetBlock { s with pending := rest }) ∨
    (∃ code id rest, s.pending = .command code id :: rest ∧ s.seq = .idle ∧
      t = issueCommand code id { s with pending := rest }) ∨
    (∃ f bytes rest, s.pending = .op f bytes :: rest ∧ s.seq = .idle ∧
      ((∃ i, decode f bytes = .ok i ∧ exec i { s with pending := rest } = .next t) ∨
        t = { s with pending := rest })) ∨
    (s.pending = [] ∧ s.seq = .idle ∧ t = s) ∨ (s.seq ≠ .idle ∧ t = seqStep s) := by
  unfold step machineStep at h
  split at h
  · cases h; left; exact ⟨_, by assumption, rfl⟩
  · cases h; right; left; exact ⟨_, _, _, by assumption, by assumption, rfl⟩
  · right; right; left
    rename_i f bytes rest hp hs
    refine ⟨f, bytes, rest, hp, hs, ?_⟩
    unfold runWord at h
    split at h
    · left; exact ⟨_, by assumption, h⟩
    · right; cases h; rfl
    · cases h
  · cases h; right; right; right; left; exact ⟨by assumption, by assumption, rfl⟩
  · cases h; right; right; right; right
    refine ⟨?_, rfl⟩
    intro hs
    rename_i h1 h2 h3 h4
    cases hp : s.pending with
    | nil => exact h4 hp hs
    | cons r l =>
      cases r with
      | op f b => exact h3 _ _ _ hp hs
      | command c i => exact h2 _ _ _ hp hs
      | reset => exact h1 _ hp

/-- A command taken from the port pushes a frame or changes nothing. -/
theorem issueCommand_cases (code : BitVec 3) (id : Byte) (s : State) :
    issueCommand code id s = s ∨
      ∃ i, portCommand code id = .ok i ∧ s.accepts i = true ∧ issueCommand code id s = s.goto (startFrame i s) := by
  unfold issueCommand
  cases h : portCommand code id with
  | error e => exact .inl rfl
  | ok i =>
    by_cases ha : s.accepts i = true
    · exact .inr ⟨i, rfl, ha, if_pos ha⟩
    · exact .inl (if_neg ha)

/-- What a step of a transfer, a register transaction or a burst leaves alone: the status, the readings, `T`, the build,
the host's side; and at most one line event is added (R9, R37). -/
structure DataPathStep (s t : State) : Prop where
  dev : t.dev = s.dev
  fault : t.fault = s.fault
  faultInfo : t.faultInfo = s.faultInfo
  id : t.id = s.id
  bound : t.bound = s.bound
  tmp : t.tmp = s.tmp
  prox : t.prox = s.prox
  freq : t.freq = s.freq
  params : t.params = s.params
  pending : t.pending = s.pending
  liveIds : t.liveIds = s.liveIds
  returned : t.returned = s.returned
  seq : t.seq = s.seq
  log : t.log = s.log ∨ ∃ e, t.log = e :: s.log

theorem xferStep_dataPath (b : Byte) (x : XferPos) (s : State) : DataPathStep s (xferStep b x s).1 := by
  unfold xferStep
  split <;> constructor <;> simp [stepDrive]

theorem regStep_dataPath (a d : Byte) (p : RegPos) (s : State) : DataPathStep s (regStep a d p s).1 := by
  cases p <;> simp only [regStep]
  case addrPhase x => have := xferStep_dataPath a x s; split <;> simp_all
  case dataPhase x => have := xferStep_dataPath d x s; split <;> simp_all
  all_goals constructor <;> simp

theorem bufStep_dataPath (p : BufPos) (s : State) : DataPathStep s (bufStep p s).1 := by
  cases p <;> simp only [bufStep]
  case opcode x => have := xferStep_dataPath Config.burstOpcode x s; split <;> simp_all
  case data j x => have := xferStep_dataPath Config.readFill x s; split <;> simp_all
  all_goals constructor <;> simp

/-! ### A step of the sequencer at the positions of the data path -/

theorem seqStep_newWrite {s : State} {n : Fin 11} {p : RegPos} (h : s.seq = .newWrite n p) :
    seqStep s = (regStep (writeAddressByte s.params.initSeq[n].1) s.params.initSeq[n].2 p s).1.goto
      (match (regStep (writeAddressByte s.params.initSeq[n].1) s.params.initSeq[n].2 p s).2 with
        | some q => .newWrite n q
        | none => afterWrite n) := by
  unfold seqStep
  rw [h]
  simp only
  cases regStep (writeAddressByte s.params.initSeq[n].1) s.params.initSeq[n].2 p s with
  | mk t q => cases q <;> rfl

theorem seqStep_newBurst {s : State} {p : BufPos} (h : s.seq = .newBurst p) :
    seqStep s = (bufStep p s).1.goto (match (bufStep p s).2 with
      | some q => .newBurst q
      | none => .newSelfCheck) := by
  unfold seqStep
  rw [h]
  simp only
  cases bufStep p s with
  | mk t q => cases q <;> rfl

theorem seqStep_updateRead {s : State} {r : Fin 5} {p : RegPos} (h : s.seq = .updateRead r p) :
    seqStep s = (regStep (readAddressByte (updateAddr s.params r)) Config.readFill p s).1.goto
      (match (regStep (readAddressByte (updateAddr s.params r)) Config.readFill p s).2 with
        | some q => .updateRead r q
        | none => .updateStore r) := by
  unfold seqStep
  rw [h]
  simp only
  cases regStep (readAddressByte (updateAddr s.params r)) Config.readFill p s with
  | mk t q => cases q <;> rfl

end Sys2Proof.Machine
end

