-- ==== Sys2Proof/Laws/Trace.lean ====
section
/-! SUPPORT. The closed-form traces: their counts (R249), and that they depend on the samples only in the levels
sampled (R37). -/

namespace Sys2Proof.Machine

/-! ### Counts -/

theorem transferEvents_counts (c b r) : eventCounts (transferEvents c b r) = [32, 16, 8, 0, 0] := by
  simp [eventCounts, transferEvents, List.range, List.range.loop, toggles, sampleCount, settleWaits, pads]
theorem eventCounts_append (a b) : eventCounts (a ++ b) = (eventCounts a).zipWith (·+·) (eventCounts b) := by
  simp [eventCounts, toggles, sampleCount, settleWaits, pads]
theorem registerEvents_counts (c a d q r) : eventCounts (registerEvents c a d q r) = [68, 32, 16, 1, 1] := by
  simp only [registerEvents, eventCounts_append, transferEvents_counts]; decide
theorem fills_counts (c) (l : List Byte) :
    eventCounts (l.flatMap (transferEvents c 0#8)) = [32, 16, 8, 0, 0].map (· * l.length) := by
  induction l with
  | nil => rfl
  | cons a l ih => rw [List.flatMap_cons, eventCounts_append, transferEvents_counts, ih]; simp [Nat.add_comm, Nat.mul_add]
theorem writesEvents_counts (l c q) : eventCounts (writesEvents l c q) = [68, 32, 16, 1, 1].map (· * l.length) := by
  induction l generalizing q with
  | nil => rfl
  | cons a l ih => rw [writesEvents_cons, eventCounts_append, registerEvents_counts, ih]; simp [Nat.add_comm, Nat.mul_add]
theorem burstEvents_counts (p : Params) (c q0) (q : List Byte)
    (h : p.burstSettleUs = 0) (h' : p.burstPad = false) (hl : q.length = 12) :
    eventCounts (burstEvents p c q0 q) = [418, 208, 104, 0, 0] := by
  simp only [burstEvents, eventCounts_append, transferEvents_counts, h, h']
  rw [fills_counts, hl]; decide
theorem newEvents_counts (p : Params) (id q) (h : p.burstSettleUs = 0) (h' : p.burstPad = false) :
    eventCounts (newEvents p id q) = [1167, 560, 280, 11, 11] := by
  rw [newEvents, ← List.singleton_append, eventCounts_append, eventCounts_append,
    burstEvents_counts _ _ _ _ h h' (by simp), initEvents, writesEvents_counts, Vector.length_toList]; rfl
theorem updateEvents_counts (p : Params) (c q) : eventCounts (updateEvents p c q) = [340, 160, 80, 5, 5] := by
  simp only [updateEvents, eventCounts_append, registerEvents_counts]
  decide

/-! ### Skeletons -/

theorem transferEvents_skeleton (c b r r') :
    (transferEvents c b r).map LineEvent.skeleton =
      (transferEvents c b r').map LineEvent.skeleton := by
  simp [transferEvents, List.range, List.range.loop, LineEvent.skeleton]
theorem registerEvents_skeleton (c a d q r q' r') :
    (registerEvents c a d q r).map LineEvent.skeleton =
      (registerEvents c a d q' r').map LineEvent.skeleton := by
  simp [registerEvents, transferEvents_skeleton c a q q', transferEvents_skeleton c d r r']
theorem fills_skeleton (c) (f g : Nat → Byte) (l : List Nat) :
    ((l.map f).flatMap (transferEvents c 0#8)).map LineEvent.skeleton =
      ((l.map g).flatMap (transferEvents c 0#8)).map LineEvent.skeleton := by
  induction l with
  | nil => rfl
  | cons a l ih => simp [transferEvents_skeleton c _ (f a) (g a)] at *; exact ih
theorem writesEvents_skeleton (l c q q') :
    (writesEvents l c q).map LineEvent.skeleton =
      (writesEvents l c q').map LineEvent.skeleton := by
  induction l generalizing q q' with
  | nil => rfl
  | cons a l ih => rw [writesEvents_cons, writesEvents_cons, List.map_append, List.map_append, ih _ (fun m => q' (m + 2)),
      registerEvents_skeleton]
theorem burstEvents_skeleton (p : Params) (c q0 q0') (f g : Nat → Byte) (l : List Nat) :
    (burstEvents p c q0 (l.map f)).map LineEvent.skeleton =
      (burstEvents p c q0' (l.map g)).map LineEvent.skeleton := by
  simp only [burstEvents, List.map_append, fills_skeleton c f g, transferEvents_skeleton _ _ q0 q0']
theorem newEvents_skeleton (p : Params) (id q q') :
    (newEvents p id q).map LineEvent.skeleton =
      (newEvents p id q').map LineEvent.skeleton := by
  rw [newEvents, newEvents]
  simp only [List.cons_append, List.map_append, List.map_cons, initEvents, writesEvents_skeleton _ _ q q']
  rw [burstEvents_skeleton p _ _ (q' 22) _ (fun j => q' (23 + j))]
theorem updateEvents_skeleton (p : Params) (c q q') :
    (updateEvents p c q).map LineEvent.skeleton =
      (updateEvents p c q').map LineEvent.skeleton := by
  simp only [updateEvents, List.map_append]
  rfl

end Sys2Proof.Machine
end

