-- ==== Sys2Proof/Tests/Slice0.lean ====
section
/-! SUPPORT. Small tests, their expected results from 95_test_vectors.md and the encoding tables of 30_encoding.md, and
one witness of the hypotheses of each obligation that has some (`witness_<Name>`). -/

namespace Sys2Proof.Tests

set_option Elab.async false

open Sys2Proof.Machine

/-! ### Helpers -/

/-- Parameter set T of 95_test_vectors.md part 3. -/
def setT : Params where
  backend := .real
  validIds := [0, 1]
  diInit := false
  csInit := true
  clkInit := false
  tPad := 1
  initSeq := #v[(0x01, 0x13), (0x02, 0x3A), (0x03, 0xA9), (0x04, 0x17), (0x05, 0x02), (0x0A, 0x02), (0x0B, 0x01),
    (0x06, 0x50), (0x07, 0x14), (0x08, 0xC0), (0x09, 0x12)]
  aProxMsb := 0x22
  aProxLsb := 0x21
  aFreqMsb := 0x25
  aFreqMid := 0x24
  aFreqLsb := 0x23
  burstSettleUs := 0
  burstPad := false

/-- The samples that make up bytes, first bit first (R62). -/
def bitsOf (l : List Byte) : List Level := l.flatMap fun b => (List.range 8).map (b.getMsbD ·)

/-- After reset, with the environment answering the bytes given, one per transfer. -/
def fresh (answers : List Byte) : State := { State.resetWith setT with samples := bitsOf answers }

/-- A constructed instance, with the answers given. -/
def ready (answers : List Byte) : State :=
  { fresh answers with dev := .ready, bound := true, buf := (Vector.replicate 12 0x00#8).set 0 0x80#8 }

/-- The stand-in. -/
def stub : State := State.resetWith { setT with backend := .stub }

/-- What a chip answers to the 35 transfers of NEW whose burst begins with `b` (R176). -/
def newAnswers (b : Byte) : List Byte := List.replicate 23 0xFF#8 ++ b :: List.replicate 11 0xFF#8

/-- The state after, if there is one. -/
def after (i : Instr) (s : State) : State :=
  match exec i s with
  | .next t => t
  | .fault _ => s
  | .refused _ => s

/-- The bits driven on `DI`, in order. -/
def driven (s : State) : List Level := s.trace.filterMap fun | .di b => some b | _ => none

/-! ### Decoding, by words written out from R91 to R101 -/

theorem test_decode_transfer : decode .B [0b10100101#8] = .ok (.transfer 0xA5#8) := by decide
theorem test_decode_transfer_word : decodeTableWord 8 0b10100101 = some (.transfer 0xA5#8) := by decide
theorem test_decode_readRegister : decodeTableWord 16 0b1010000100000000 = some (.readRegister 0x21#8) := by decide
theorem test_decode_writeRegister : decodeTableWord 16 0b0000101100000001 = some (.writeRegister 0x0B#8 0x01#8) := by
  decide
theorem test_decode_readBuffer : decodeTableWord 104 (0b10000000 <<< 96) = some .readBuffer := by decide
theorem test_decode_new : decode .H [0b000#8, 0b00000001#8] = .ok (.new 1#8) := by decide
theorem test_decode_new_word : decodeTableWord 8 0b000 = some (.new 0#8) := by decide
theorem test_decode_update : decodeTableWord 8 0b001 = some .update := by decide
theorem test_decode_getData : decodeTableWord 8 0b010 = some .getData := by decide
theorem test_decode_getFrequency : decodeTableWord 8 0b011 = some .getFrequency := by decide
theorem test_decode_destroy : decodeTableWord 8 0b100 = some .destroy := by decide

/-- The decoder refuses by name (R102 to R104). -/
theorem test_decode_refusals :
    decode .H [0b101#8, 0#8] = .error .reservedCommand ∧
    decode .H [0b111#8, 0#8] = .error .reservedCommand ∧
    decode .H [0b1000#8, 0#8] = .error .notThreeBits ∧
    decode .R [0xA1#8, 0x01#8] = .error .readFillNotZero ∧
    decode .S (0x80#8 :: List.replicate 11 0x00#8 ++ [0x01#8]) = .error .notABurst ∧
    decode .R [0xA1#8] = .error .wrongLength := by decide

/-! ### WellFormed: each check refuses an ill-formed term -/

theorem test_wf_readRegister_bit7 : (Instr.readRegister 0x80#8).wf = false := by decide
theorem test_wf_writeRegister_bit7 : (Instr.writeRegister 0x8B#8 0x01#8).wf = false := by decide
theorem test_wf_params_noPad : ({ setT with tPad := 0 } : Params).wf = false := by decide
theorem test_wf_params_twice : ({ setT with validIds := [1, 1] } : Params).wf = false := by decide
theorem test_wf_accepts : setT.wf = true ∧ (Instr.readRegister 0x7F#8).wf = true := by decide

/-! ### One step of each operation -/

/-- V1: result 0x3C, `TX` 0, `DI` high, `CLK` low; the first slot's events. -/
theorem test_transfer_V1 :
    (after (.transfer 0xA5#8) (fresh [0x3C#8])).returned = [.byte 0x3C#8] ∧
    (after (.transfer 0xA5#8) (fresh [0x3C#8])).trace.take 4 =
      [.di true, .ck true, .sample false, .ck false] ∧
    driven (after (.transfer 0xA5#8) (fresh [0x3C#8])) = [true, false, true, false, false, true, false, true] := by
  decide +kernel

/-- V5: the first sample is bit 7; V5a: an accumulator left full changes nothing. -/
theorem test_transfer_V5 :
    (after (.transfer 0x01#8) { fresh [] with rx := 0xFF#8, samples := true :: List.replicate 7 false }).rx = 0x80#8 := by
  decide +kernel

/-- V6, V7: READ_REGISTER(0xA1) is READ_REGISTER(0x21): the bytes A1 00 on `DI`, the result that of the data phase. -/
theorem test_readRegister_V6 :
    (after (.readRegister 0xA1#8) (fresh [0xFF#8, 0x34#8])).returned = [.byte 0x34#8] ∧
    driven (after (.readRegister 0xA1#8) (fresh [0xFF#8, 0x34#8])) =
      [true, false, true, false, false, false, false, true,
       false, false, false, false, false, false, false, false] ∧
    (after (.readRegister 0xA1#8) (fresh [0xFF#8, 0x34#8])).trace.take 2 = [.cs false, .wait 2] := by decide +kernel

/-- V9: WRITE_REGISTER(0x8B, 0x01) sends 0B 01 and returns the data-phase byte. -/
theorem test_writeRegister_V9 :
    (after (.writeRegister 0x8B#8 0x01#8) (fresh [0x00#8, 0xA5#8])).returned = [.byte 0xA5#8] ∧
    driven (after (.writeRegister 0x8B#8 0x01#8) (fresh [0x00#8, 0xA5#8])) =
      [false, false, false, false, true, false, true, true,
       false, false, false, false, false, false, false, true] ∧
    (after (.writeRegister 0x8B#8 0x01#8) (fresh [0x00#8, 0xA5#8])).log.head? = some (.cs true) := by decide +kernel

/-- V11: the byte received with the opcode is dropped; 418 events. -/
theorem test_readBuffer_V11 :
    (after .readBuffer (fresh [0x00, 0x80, 0x13, 0x3A, 0xA9, 0x17, 0x02, 0x50, 0x14, 0xC0, 0x12, 0x02, 0x01])).buf =
      #v[0x80, 0x13, 0x3A, 0xA9, 0x17, 0x02, 0x50, 0x14, 0xC0, 0x12, 0x02, 0x01] ∧
    (after .readBuffer (fresh (List.replicate 13 0x00#8))).trace.length = 418 := by decide +kernel

/-- V12, first row: Ready, 1167 events, whatever `BUF[1..11]` holds. -/
theorem test_new_V12_present :
    (after (.new 0#8) (fresh (newAnswers 0x80#8))).dev = .ready ∧
    (after (.new 0#8) (fresh (newAnswers 0x80#8))).bound = true ∧
    (after (.new 0#8) (fresh (newAnswers 0x80#8))).trace.length = 1167 := by decide +kernel

/-- V12, the row 0x81, and V12a. -/
theorem test_new_V12_absent :
    (after (.new 0#8) (fresh (newAnswers 0x81#8))).fault = some .presenceError ∧
    (after (.new 0#8) (fresh (newAnswers 0x81#8))).faultInfo = 0x81#8 ∧
    (after (.new 2#8) (fresh [])).fault = some .configError ∧
    (after (.new 2#8) (fresh [])).faultInfo = 2#8 ∧ (after (.new 2#8) (fresh [])).trace = [] := by decide +kernel

/-- V13; and the bytes on `DI`, which part 3 gives for an UPDATE with parameter set T. -/
theorem test_update_V13 :
    (after .update (ready [0, 0x12, 0, 0x34, 0, 0x01, 0, 0x02, 0, 0x03])).prox = 0x1234#16 ∧
    (after .update (ready [0, 0x12, 0, 0x34, 0, 0x01, 0, 0x02, 0, 0x03])).freq = 0x00010203#32 ∧
    (after .update (ready [0, 0x12, 0, 0x34, 0, 0x01, 0, 0x02, 0, 0x03])).trace.length = 340 ∧
    driven (after .update (ready [])) = bitsOf [0xA2, 0x00, 0xA1, 0x00, 0xA5, 0x00, 0xA4, 0x00, 0xA3, 0x00] := by
  decide +kernel

/-- V14, the second row: the top byte of `FREQ` stays zero; and V17: after reset UPDATE is refused. -/
theorem test_update_V14 :
    (after .update (ready (List.replicate 10 0xFF#8))).freq = 0x00FFFFFF#32 ∧ after .update (fresh []) = fresh [] := by
  decide +kernel

theorem test_getData_V15 :
    (after .getData { ready [] with prox := 0x1234#16 }).returned = [.data 0x1234#16] := by decide +kernel
theorem test_getFrequency_V15 :
    (after .getFrequency { ready [] with freq := 0x00010203#32 }).returned = [.frequency 0x00010203#32] := by
  decide +kernel

/-- V16: the stand-in returns zero whatever the register holds. -/
theorem test_getData_V16 :
    (after .getData { stub with dev := .ready, prox := 0x1234#16 }).returned = [.data 0#16] := by decide +kernel
theorem test_destroy_V17 :
    (after .destroy (ready [])).trace = [.release] ∧ (after .destroy (ready [])).accepts (.new 0#8) = true ∧
    after .destroy (fresh []) = fresh [] := by decide +kernel

/-- A word placed by `withFetchWord` is what the next step runs. -/
theorem test_withFetchWord : (match step ((fresh []).withFetchWord 8 0b000) with
    | .next t => some t.faultInfo
    | .fault _ => none
    | .refused _ => none) = (match exec (.new 0#8) (fresh []) with
    | .next t => some t.faultInfo
    | .fault _ => none
    | .refused _ => none) := by rfl

/-! ### Witnesses of the hypotheses of the obligations -/

theorem witness_DecodeAfterEncode : (Instr.writeRegister 0x7F#8 0xFF#8).wf = true ∧ (Instr.new 0xFF#8).wf = true := by
  decide

/-- One word of each format. -/
theorem witness_EncodeAfterDecode :
    decode .B [0xFF#8] = .ok (.transfer 0xFF#8) ∧ decode .R [0xFF#8, 0x00#8] = .ok (.readRegister 0x7F#8) ∧
    decode .S burstBytes = .ok .readBuffer ∧ decode .H [4#8, 9#8] = .ok .destroy ∧
    decode .H [0#8, 9#8] = .ok (.new 9#8) := by decide

/-- For TransferNextState, RegisterTransactionNextState and BurstNextState. -/
theorem witness_realBackend : (fresh [0x3C#8]).params.backend = .real := by decide

/-- The slots at both ends of the range of k. -/
theorem witness_TransferClosedForm : ∃ t, (fresh [0x81#8]).params.backend = .real ∧
    exec (.transfer 0xA5#8) { fresh [0x81#8] with tx := 0xFF#8, rx := 0xFF#8 } = .next t ∧
    t.rx.getLsbD (7 - 0) = true ∧ t.rx.getLsbD (7 - 7) = true ∧ (0 < 8 ∧ 7 < 8) := by
  refine ⟨_, by decide, rfl, ?_, ?_, by decide⟩ <;> decide +kernel

theorem witness_TransferLoopback : (fresh [0xA5#8, 0x01#8]).params.backend = .real ∧
    (fresh [0xA5#8, 0x01#8]).samples = (List.range 8).map (fun k => (0xA5#8).getMsbD k) ++ bitsOf [0x01#8] := by
  decide +kernel

/-- Each of the three operations. -/
theorem witness_FramingOfTransactions : (∃ t, exec (.readRegister 0xFF#8) (fresh []) = .next t) ∧
    (∃ t, exec (.writeRegister 0xFF#8 0x00#8) (fresh []) = .next t) ∧ (∃ t, exec .readBuffer (fresh []) = .next t) ∧
    (fresh []).params.backend = .real :=
  ⟨⟨_, rfl⟩, ⟨_, rfl⟩, ⟨_, rfl⟩, by decide⟩

theorem witness_NewBecomesReady : (fresh (newAnswers 0x80#8)).params.backend = .real ∧
    (fresh (newAnswers 0x80#8)).seq = .idle ∧ (fresh (newAnswers 0x80#8)).fault = none ∧
    (fresh (newAnswers 0x80#8)).dev = .uninitialized ∧ 1#8 ∉ (fresh (newAnswers 0x80#8)).liveIds ∧
    1#8 ∈ (fresh (newAnswers 0x80#8)).params.validIds ∧ (fresh (newAnswers 0x80#8)).received 23 = 0x80#8 := by
  decide +kernel

theorem witness_NewTakesPresenceError : (fresh (newAnswers 0x81#8)).params.backend = .real ∧
    (fresh (newAnswers 0x81#8)).seq = .idle ∧ (fresh (newAnswers 0x81#8)).fault = none ∧
    (fresh (newAnswers 0x81#8)).dev = .uninitialized ∧ 1#8 ∉ (fresh (newAnswers 0x81#8)).liveIds ∧
    1#8 ∈ (fresh (newAnswers 0x81#8)).params.validIds ∧ (fresh (newAnswers 0x81#8)).received 23 ≠ 0x80#8 := by
  decide +kernel

/-- Both backends. -/
theorem witness_NewTakesConfigError : ((fresh []).seq = .idle ∧ (fresh []).fault = none ∧
      (fresh []).dev = .uninitialized ∧ 2#8 ∉ (fresh []).liveIds ∧ 2#8 ∉ (fresh []).params.validIds ∧
      (fresh []).params.backend = .real) ∧
    (stub.seq = .idle ∧ stub.fault = none ∧ stub.dev = .uninitialized ∧ 2#8 ∉ stub.liveIds ∧
      2#8 ∉ stub.params.validIds ∧ stub.params.backend = .stub) := by decide +kernel

/-- For UpdateNextState, EveryReadingCanOccur, GettersReturnCachedReadings and the real clause of DestroyNextState. -/
theorem witness_readyReal : (ready []).params.backend = .real ∧ (ready []).seq = .idle ∧ (ready []).fault = none ∧
    (ready []).dev = .ready := by decide +kernel

/-- GET_DATA on both sides of GET_FREQUENCY, as in V15; either backend. -/
theorem witness_GettersAreIdempotent :
    ((ready []).seq = .idle ∧ (ready []).fault = none ∧ (ready []).dev = .ready ∧ (ready []).params.backend = .real) ∧
    (({ stub with dev := .ready } : State).seq = .idle ∧ ({ stub with dev := .ready } : State).fault = none ∧
      ({ stub with dev := .ready } : State).params.backend = .stub) ∧
    (∀ i ∈ [Instr.getData, .getFrequency, .getData], i = .getData ∨ i = .getFrequency) ∧
    ∃ t, execAll [.getData, .getFrequency, .getData] (ready []) = .next t :=
  ⟨by decide +kernel, by decide +kernel, by decide, _, rfl⟩

/-- The clause on a NEW after DESTROY. -/
theorem witness_DestroyNextState : ∃ t, exec .destroy (ready []) = .next t ∧ 0#8 ∉ t.liveIds :=
  ⟨_, rfl, by decide +kernel⟩

/-- For StubCommands, both clauses, StubInternalOperations and the stand-in's clause of DestroyNextState. -/
theorem witness_StubCommands : stub.params.backend = .stub ∧ stub.seq = .idle ∧ stub.fault = none ∧
    stub.dev = .uninitialized ∧ ({ stub with dev := .ready } : State).dev = .ready ∧
    ({ stub with dev := .ready } : State).seq = .idle ∧ ({ stub with dev := .ready } : State).fault = none := by
  decide +kernel

theorem witness_StubWritesOnlyDev : ∃ t, exec (.new 200#8) stub = .next t ∧ t.dev ≠ stub.dev :=
  ⟨_, rfl, by decide +kernel⟩

/-- Every clause: a busy block, one with an error, a constructed one, one before construction, an id held elsewhere. -/
theorem witness_RefusedCommandChangesNothing : Instr.update.isCommand = true ∧
    ({ fresh [] with seq := .destroy .release } : State).seq ≠ .idle ∧
    ({ fresh [] with fault := some .configError } : State).fault ≠ none ∧
    (ready []).dev = .ready ∧ (fresh []).dev = .uninitialized ∧
    (0#8 ∈ ({ fresh [] with liveIds := [0#8] } : State).liveIds ∧
      ({ fresh [] with liveIds := [0#8] } : State).params.backend = .real) := by decide +kernel

/-- Each register is changed by some operation, from some state. -/
theorem witness_RegistersChangedOnlyByTheirWriters :
    (after (.transfer 0x01#8) (fresh [0xFF#8])).di ≠ (fresh [0xFF#8]).di ∧
    (after (.transfer 0x01#8) (fresh [0xFF#8])).rx ≠ (fresh [0xFF#8]).rx ∧
    (after (.transfer 0x01#8) { fresh [0xFF#8] with tx := 1#8 }).tx ≠ 1#8 ∧
    (after (.readRegister 0x01#8) { fresh [0xFF#8, 0xFF#8] with cs := false }).cs ≠ false ∧
    (after .update (ready (List.replicate 10 0xFF#8))).tmp ≠ (ready []).tmp ∧
    (after .update (ready (List.replicate 10 0xFF#8))).prox ≠ (ready []).prox ∧
    (after .update (ready (List.replicate 10 0xFF#8))).freq ≠ (ready []).freq ∧
    (after .readBuffer (fresh (List.replicate 13 0xFF#8))).buf ≠ (fresh []).buf ∧
    (after .destroy (ready [])).dev ≠ (ready []).dev ∧ (after .destroy (ready [])).bound ≠ (ready []).bound ∧
    (after (.new 2#8) (fresh [])).fault ≠ (fresh []).fault ∧
    (after (.new 2#8) (fresh [])).faultInfo ≠ (fresh []).faultInfo ∧
    (after (.new 1#8) (fresh (newAnswers 0x80#8))).id ≠ (fresh []).id ∧
    (after (.new 1#8) { fresh (newAnswers 0x80#8) with clk := true }).clk ≠ true := by decide +kernel

/-- A block at its self-check after a burst that began with 0x80. -/
def atSelfCheck : State :=
  { fresh [] with bound := true, seq := .newSelfCheck, buf := (Vector.replicate 12 0x00#8).set 0 0x80#8 }

/-- The operation, the step of a running NEW, and NEW run as a whole. -/
theorem witness_ReadyOnlyThroughSelfCheck : ((fresh (newAnswers 0x80#8)).params.backend = .real ∧
      (fresh (newAnswers 0x80#8)).dev ≠ .ready ∧ (after (.new 1#8) (fresh (newAnswers 0x80#8))).dev = .ready ∧
      ∃ t, exec (.new 1#8) (fresh (newAnswers 0x80#8)) = .next t) ∧
    (atSelfCheck.params.backend = .real ∧ atSelfCheck.dev ≠ .ready ∧
      ∃ t, step atSelfCheck = .next t ∧ t.dev = .ready) ∧
    ({ fresh (newAnswers 0x80#8) with pending := [.op .H [0#8, 1#8]] } : State).dev ≠ .ready ∧
    step { fresh (newAnswers 0x80#8) with pending := [.op .H [0#8, 1#8]] } =
      .next (after (.new 1#8) (fresh (newAnswers 0x80#8))) :=
  ⟨⟨by decide +kernel, by decide +kernel, by decide +kernel, _, rfl⟩,
    ⟨by decide +kernel, by decide +kernel, _, rfl, by decide +kernel⟩, by decide +kernel, rfl⟩

/-- A constructed block with an error recorded, and a reset or a command waiting; also for ResetEvent. -/
theorem witness_FaultIsSticky :
    (∃ t, step { fresh [] with fault := some .configError, pending := [.reset] } = .next t ∧ t.fault = none) ∧
    (({ fresh [] with fault := some .configError, pending := [.op .H [0#8, 1#8]] } : State).fault ≠ none ∧
      ({ fresh [] with fault := some .configError, pending := [.op .H [0#8, 1#8]] } : State).seq = .idle ∧
      decode .H [0#8, 1#8] = .ok (.new 1#8)) ∧
    (({ fresh [] with fault := some .configError, pending := [.command 0b000#3 1#8] } : State).fault ≠ none ∧
      ({ fresh [] with fault := some .configError, pending := [.command 0b000#3 1#8] } : State).seq = .idle) :=
  ⟨⟨_, rfl, rfl⟩, by decide +kernel, by decide +kernel⟩

theorem witness_EventCounts : (fresh []).params.burstSettleUs = 0 ∧ (fresh []).params.burstPad = false ∧
    ∃ t, exec .readBuffer (fresh []) = .next t := ⟨by decide +kernel, by decide +kernel, _, rfl⟩

theorem witness_SamplesDoNotSteerTheTrace : ∃ t u, exec (.new 0#8) (fresh (newAnswers 0x80#8)) = .next t ∧
    exec (.new 0#8) { fresh (newAnswers 0x80#8) with samples := [], drawn := 7 } = .next u := ⟨_, _, rfl, rfl⟩

/-- All three clauses, the first with a command that is accepted and one that is not. -/
theorem witness_StepRunsTheDecodedOperation :
    (step { ready [] with pending := [.command 0b001#3 0#8] } = .next { ready [] with seq := .updateRead 0 .assert } ∧
      step { fresh [] with pending := [.command 0b001#3 0#8] } = .next (fresh []) ∧
      decode .H [(0b001#3).setWidth 8, 0#8] = .ok .update) ∧
    (({ fresh [] with pending := [.op .H [1#8, 0#8], .reset] } : State).seq = .idle ∧
      decode .H [1#8, 0#8] = .ok .update) ∧
    decodeTableWord 16 0b1111111100000000 = some (.readRegister 0x7F#8) :=
  ⟨⟨rfl, rfl, by decide⟩, by decide +kernel, by decide⟩

/-- The reserved codes at both ends, on an idle block. -/
theorem witness_ReservedCodesAreRefused :
    (step { fresh [] with pending := [.command 0b101#3 0#8] } = .next (fresh [])) ∧
    (step { fresh [] with pending := [.command 0b111#3 255#8] } = .next (fresh [])) ∧
    (step { fresh [] with pending := [.op .H [0b101#8, 0#8]] } = .next (fresh [])) ∧
    (step { fresh [] with pending := [.op .H [0b111#8, 255#8]] } = .next (fresh [])) ∧ (fresh []).seq = .idle :=
  ⟨rfl, rfl, rfl, rfl, rfl⟩

/-- An idle block without a request; a busy one with a command waiting. -/
theorem witness_IdleWaitsAndBusyRuns : ((fresh []).seq = .idle ∧ (fresh []).pending = []) ∧
    ({ ready [] with seq := .destroy .prox, pending := [.command 0b001#3 0#8] } : State).seq ≠ .idle ∧
    (∀ rest, ({ ready [] with seq := .destroy .prox, pending := [.command 0b001#3 0#8] } : State).pending ≠ .reset :: rest) :=
  ⟨by decide +kernel, by decide +kernel, fun _ h => by cases h⟩

/-- A constructed instance with GET_DATA waiting. -/
def readyWaiting : State := { ready [] with pending := [.op .H [2#8, 0#8]] }

/-- Constructed with the real backend, and the stand-in. -/
theorem witness_IdleInvariantsKept :
    readyWaiting.idleInv ∧ (∃ t, step readyWaiting = .next t) ∧ stub.idleInv :=
  ⟨⟨rfl, rfl, by decide +kernel, fun _ => ⟨fun _ => ⟨rfl, rfl⟩, fun _ => ⟨rfl, rfl, by decide +kernel⟩, nofun, nofun,
    nofun⟩, nofun⟩, ⟨_, rfl⟩, rfl, rfl, by decide +kernel, nofun, fun _ => ⟨rfl, rfl, rfl, rfl⟩⟩

/-- In the middle of the burst of NEW, the clock away from its resting level. -/
def inBurst : State :=
  { fresh [] with
    bound := true, cs := false, clk := true, seq := .newBurst (.data 11 (.slot 7 .edge2)), pending := [.reset] }

/-- A command waiting on the port of a constructed block, a block inside a command, the stand-in inside one. -/
theorem witness_BlockInvariantsKept :
    (({ ready [] with pending := [.command 0b100#3 0#8] } : State).blockInv ∧
      ∃ t, step { ready [] with pending := [.command 0b100#3 0#8] } = .next t) ∧
    (inBurst.blockInv ∧ (∃ t, step inBurst = .next t) ∧ ∃ t, step { inBurst with pending := [] } = .next t) ∧
    ({ stub with dev := .ready, seq := .get .data } : State).blockInv ∧
    ∃ t, step { stub with dev := .ready, seq := .get .data } = .next t :=
  ⟨⟨⟨rfl, by decide +kernel, fun _ => ⟨fun _ => ⟨rfl, rfl⟩, fun _ => ⟨rfl, rfl, by decide +kernel⟩, nofun, nofun,
    nofun⟩, nofun⟩, _, rfl⟩,
    ⟨⟨rfl, by decide +kernel, fun _ => ⟨rfl, rfl, rfl, rfl, by decide +kernel⟩, nofun⟩, ⟨_, rfl⟩, _, rfl⟩,
    ⟨rfl, by decide +kernel, nofun, fun _ => ⟨⟨rfl, rfl, rfl, rfl⟩, rfl⟩⟩, _, rfl⟩

/-- In the middle of a command too. -/
theorem witness_FrequencyTopByteStaysZero :
    ({ ready [] with seq := .updateCommit } : State).freq.extractLsb 31 24 = 0x00#8 ∧
    ∃ t, step { ready [] with seq := .updateCommit } = .next t := ⟨by decide +kernel, _, rfl⟩

theorem witness_TracesStayWellFramed : (ready []).seq = .idle ∧
    ({ ready [] with pending := [.op .H [1#8, 0#8]], log := [.bind 0#8] } : State).wholeOnly = true ∧
    ({ ready [] with pending := [.op .H [1#8, 0#8]], log := [.bind 0#8] } : State).wellFramed = true ∧
    ∃ t, step { ready [] with pending := [.op .H [1#8, 0#8]], log := [.bind 0#8] } = .next t :=
  ⟨by decide +kernel, by decide +kernel, by decide +kernel, _, rfl⟩

/-- In the second slot of the address phase of the first read of UPDATE, 0xA2 being sent. -/
def inFrame : State :=
  { ready [] with
    cs := false, tx := 0x88#8, seq := .updateRead 0 (.addrPhase (.slot 1 .edge1)),
    log := [.di false, .ck false, .sample false, .ck true, .di true, .wait 2, .cs false, .bind 0#8] }

/-- An idle block with a command, and one with a reset, waiting; a block inside a frame. -/
theorem witness_FramesKeptInsideCommands :
    (({ ready [] with pending := [.command 0b001#3 0#8, .reset] } : State).framed ∧
      ({ ready [] with pending := [.command 0b001#3 0#8, .reset] } : State).hostOnly = true ∧
      ∃ t, step { ready [] with pending := [.command 0b001#3 0#8, .reset] } = .next t) ∧
    (({ ready [] with pending := [.reset] } : State).framed ∧ (ready []).seq = .idle) ∧
    (inFrame.framed ∧ inFrame.hostOnly = true ∧ (∀ rest, inFrame.pending ≠ .reset :: rest) ∧
      ∃ t, step inFrame = .next t) :=
  ⟨⟨⟨by decide +kernel, nofun⟩, by decide +kernel, _, rfl⟩, ⟨⟨by decide +kernel, nofun⟩, by decide +kernel⟩,
    ⟨by decide +kernel, fun b h => by cases h; rfl⟩, by decide +kernel, nofun, _, rfl⟩

/-- A command that takes two steps; the code at the other end of the range. -/
theorem witness_PortCommandIsAFiniteRunOfSteps :
    ({ ready [] with pending := [.command 0b010#3 0#8] } : State).seq = .idle ∧
    (∀ r, ([] : List Request) ≠ .reset :: r) ∧
    decode .H [(0b010#3).setWidth 8, 0#8] = .ok .getData ∧ decode .H [(0b100#3).setWidth 8, 0#8] = .ok .destroy ∧
    State.run 2 { ready [] with pending := [.command 0b010#3 0#8] } = exec .getData (ready []) :=
  ⟨rfl, nofun, by decide, by decide, rfl⟩

theorem witness_SequencerRefinesExec : Instr.update.isCommand = true ∧ (ready []).seq = .idle := by decide +kernel

/-- Register 0x21 of the responder holds 0x5A: the premise is met by a read and by a write. -/
theorem witness_ResponderRegisterAccess : (fresh [0x00#8, 0x5A#8]).params.backend = .real ∧
    ((Responder.withRegs [(0x21, 0x5A#8)]).follows
      (after (.readRegister 0xA1#8) (fresh [0x00#8, 0x5A#8])).trace).map (·.reg) = some [(0x21, 0x5A#8)] ∧
    ((Responder.withRegs []).follows
      (after (.writeRegister 0x22#8 0x77#8) (fresh [0x00#8, 0x00#8])).trace).map (·.reg) = some [(0x22, 0x77#8)] := by
  decide +kernel

theorem witness_ResponderBurst : (fresh []).params.backend = .real ∧
    ((Responder.withRegs [(0, 0x80#8), (11, 0x01#8)]).follows
      (after .readBuffer (fresh (0x00 :: 0x80 :: List.replicate 10 0x00#8 ++ [0x01]))).trace).isSome = true := by
  decide +kernel

/-- A chip that answers NEW(1) of parameter set T as the responder does (program P2). -/
def present : State :=
  fresh (List.replicate 23 0x00#8 ++ [0x80, 0x13, 0x3A, 0xA9, 0x17, 0x02, 0x50, 0x14, 0xC0, 0x12, 0x02, 0x01])

/-- The responder after the binding and five writes. -/
def responder5 : Responder where
  reg := [(0, 0x80#8), (1, 0x13#8), (2, 0x3A#8), (3, 0xA9#8), (4, 0x17#8), (5, 0x02#8)]
  sel := false
  n := 2
  rw := false
  ptr := 6#7
  out := 0x00#8
  shiftIn := 0x02#8
  di := false
  slot := 0
  half := false

/-- And after the other six. -/
def responder11 : Responder where
  reg := responder5.reg ++ [(6, 0x50#8), (7, 0x14#8), (8, 0xC0#8), (9, 0x12#8), (10, 0x02#8), (11, 0x01#8)]
  sel := false
  n := 2
  rw := false
  ptr := 10#7
  out := 0x00#8
  shiftIn := 0x12#8
  di := false
  slot := 0
  half := false

theorem present_first : (Responder.withRegs [(0, 0x80#8)]).follows ((after (.new 1#8) present).trace.take 341) =
    some responder5 := by decide +kernel
theorem present_second : responder5.follows (((after (.new 1#8) present).trace.drop 341).take 408) =
    some responder11 := by decide +kernel
theorem present_burst : (responder11.follows (((after (.new 1#8) present).trace.drop 341).drop 408)).isSome = true := by
  decide +kernel

theorem follows_in_parts {r r₁ r₂ : Responder} {l : List LineEvent} (m n : Nat) (h₁ : r.follows (l.take m) = some r₁)
    (h₂ : r₁.follows ((l.drop m).take n) = some r₂) (h₃ : (r₂.follows ((l.drop m).drop n)).isSome = true) :
    (r.follows l).isSome = true := by
  rw [← List.take_append_drop m l, follows_append, h₁, Option.bind_some, ← List.take_append_drop n (l.drop m),
    follows_append, h₂, Option.bind_some, h₃]

/-- Parameter set T writes no register 0x00, and the responder's premise is met by the trace of NEW(1). -/
theorem witness_PresentChipPassesSelfCheck :
    (∀ e ∈ setT.initSeq.toList, e.1 &&& 0x7F#8 ≠ 0x00#8) ∧ Memory.wf [(0, 0x80#8)] = true ∧
    Memory.read [(0, 0x80#8)] 0 = 0x80#8 ∧ present.params = setT ∧ present.dev = .uninitialized ∧
    ((Responder.withRegs [(0, 0x80#8)]).follows (after (.new 1#8) present).trace).isSome = true :=
  ⟨fun e he => by
      simpa using List.all_eq_true.mp
        (by decide +kernel : (setT.initSeq.toList.all fun e => e.1 &&& 0x7F#8 != 0x00#8) = true) e he,
    by decide, by decide, rfl, rfl, follows_in_parts 341 408 present_first present_second present_burst⟩

theorem witness_ResponderMemoryStaysCanonical : (Responder.withRegs [(5, 1#8)]).reg.wf = true ∧
    ((Responder.withRegs [(5, 1#8)]).follows [.cs false, .di true, .ck true]).isSome = true := by decide +kernel

end Sys2Proof.Tests
end

section
/-! PROOF. What the sequencer does at each position, and that each of its steps is atomic (O48, O41). -/

namespace Sys2Proof.Machine

/-! ### The sequencer, one equation per position outside the data path (R36) -/

section Positions

variable {s : State}

theorem seqStep_idle (h : s.seq = .idle) : seqStep s = s := by simp [seqStep, h]

theorem seqStep_newCheckId_stub {id : Byte} (h : s.seq = .newCheckId id) (hb : s.params.backend = .stub) :
    seqStep s = (setDev .ready s).goto .idle := by
  simp only [seqStep, h, hb]

theorem seqStep_newCheckId_valid {id : Byte} (h : s.seq = .newCheckId id) (hb : s.params.backend = .real)
    (hv : id ∈ s.params.validIds) : seqStep s = (setId id s).goto .newBind := by
  simp [seqStep, h, hb, hv]

theorem seqStep_newCheckId_invalid {id : Byte} (h : s.seq = .newCheckId id) (hb : s.params.backend = .real)
    (hv : id ∉ s.params.validIds) : seqStep s = raise .configError id s := by
  simp [seqStep, h, hb, hv]

theorem seqStep_newBind (h : s.seq = .newBind) : seqStep s = (bindLines s.id s).goto (.newWrite 0 .assert) := by
  simp only [seqStep, h]

theorem seqStep_newSelfCheck (h : s.seq = .newSelfCheck) : seqStep s = (selfCheck s).goto .idle := by
  simp only [seqStep, h]

theorem seqStep_updateStore {r : Fin 5} (h : s.seq = .updateStore r) :
    seqStep s = (storeTmp r s).goto (afterRead r) := by
  simp only [seqStep, h]

theorem seqStep_updateCommit (h : s.seq = .updateCommit) : seqStep s = (commitReadings s).goto .idle := by
  simp only [seqStep, h]

/-- The value a getter's position returns (R180, R181). -/
def State.answer (s : State) : Reading → Result
  | .data => .data s.dataResult
  | .frequency => .frequency s.frequencyResult

theorem seqStep_get {w : Reading} (h : s.seq = .get w) : seqStep s = (s.give (s.answer w)).goto .idle := by
  cases w <;> simp only [seqStep, h, State.answer]

theorem seqStep_destroyRelease (h : s.seq = .destroy .release) :
    seqStep s = (releaseLines s).goto (.destroy .dev) := by
  simp only [seqStep, h]

theorem seqStep_destroyDev_real (h : s.seq = .destroy .dev) (hb : s.params.backend = .real) :
    seqStep s = (setDev .uninitialized s).goto (.destroy .prox) := by
  simp only [seqStep, h, hb]

theorem seqStep_destroyDev_stub (h : s.seq = .destroy .dev) (hb : s.params.backend = .stub) :
    seqStep s = (setDev .uninitialized s).goto .idle := by
  simp only [seqStep, h, hb]

theorem seqStep_destroyProx (h : s.seq = .destroy .prox) : seqStep s = (clearProx s).goto (.destroy .freq) := by
  simp only [seqStep, h]

theorem seqStep_destroyFreq (h : s.seq = .destroy .freq) : seqStep s = (clearFreq s).goto .idle := by
  simp only [seqStep, h]

end Positions

/-! ### A step of the sequencer is atomic (R9, R37) -/

theorem xferStep_atomic (b : Byte) (x : XferPos) (s : State) : AtomicStep s (xferStep b x s).1 := by
  cases x with
  | loadTx => exact .tx s b
  | clearRx => exact .rx s 0x00#8
  | slot k sub =>
    cases sub with
    | drive => exact .di s _
    | shiftTx => exact .tx s _
    | shiftRx => exact .rx s _
    | edge1 => exact .clk s
    | sample => exact .sample s
    | store v => exact .rx s _
    | edge2 => exact .clk s

theorem regStep_addrPhase (a d : Byte) (x : XferPos) (s : State) : regStep a d (.addrPhase x) s =
    ((xferStep a x s).1, some ((xferStep a x s).2.elim .pad .addrPhase)) := by
  rw [regStep]
  cases xferStep a x s with
  | mk t y => cases y <;> rfl

theorem regStep_dataPhase (a d : Byte) (x : XferPos) (s : State) : regStep a d (.dataPhase x) s =
    ((xferStep d x s).1, some ((xferStep d x s).2.elim .deassert .dataPhase)) := by
  rw [regStep]
  cases xferStep d x s with
  | mk t y => cases y <;> rfl

theorem bufStep_opcode (x : XferPos) (s : State) : bufStep (.opcode x) s =
    ((xferStep Config.burstOpcode x s).1, some ((xferStep Config.burstOpcode x s).2.elim
      (if s.params.burstPad then .pad else .data 0 .first) .opcode)) := by
  rw [bufStep]
  cases xferStep Config.burstOpcode x s with
  | mk t y => cases y <;> rfl

theorem bufStep_data (j : Fin 12) (x : XferPos) (s : State) : bufStep (.data j x) s =
    ((xferStep Config.readFill x s).1, some ((xferStep Config.readFill x s).2.elim (.store j) (.data j))) := by
  rw [bufStep]
  cases xferStep Config.readFill x s with
  | mk t y => cases y <;> rfl

theorem regStep_atomic (a d : Byte) (p : RegPos) (s : State) : AtomicStep s (regStep a d p s).1 := by
  cases p with
  | assert => exact .cs s false
  | settle => exact .wait s _
  | addrPhase x => rw [regStep_addrPhase]; exact xferStep_atomic a x s
  | pad => exact .pad s
  | dataPhase x => rw [regStep_dataPhase]; exact xferStep_atomic d x s
  | deassert => exact .cs s true

theorem bufStep_atomic (p : BufPos) (s : State) : AtomicStep s (bufStep p s).1 := by
  cases p with
  | assert => exact .cs s false
  | settle => exact .wait s _
  | opcode x => rw [bufStep_opcode]; exact xferStep_atomic _ x s
  | pad => exact .pad s
  | data j x => rw [bufStep_data]; exact xferStep_atomic _ x s
  | store j => exact .buf s j
  | deassert => exact .cs s true

/-- The state after an atomic step and a move of the sequencer, in the form O48 gives it. -/
theorem atomic_of_goto {s t u : State} {q : Seq} (h : AtomicStep s t) (hu : u = t.goto q) :
    ∃ t, AtomicStep s t ∧ u = { t with seq := u.seq } :=
  ⟨t, h, by rw [hu]; rfl⟩

/-- Settles O48, position by position: the data path by its three layers, the rest by the equation of the position. -/
theorem sequencerStepIsAtomic : Obligations.SequencerStepIsAtomic := by
  intro s
  cases hs : s.seq with
  | idle => exact ⟨s, .none s, by rw [seqStep_idle hs]⟩
  | newCheckId id =>
    cases hb : s.params.backend with
    | stub => exact atomic_of_goto (.dev s .ready) (seqStep_newCheckId_stub hs hb)
    | real =>
      by_cases hv : id ∈ s.params.validIds
      · exact atomic_of_goto (.id s id) (seqStep_newCheckId_valid hs hb hv)
      · exact ⟨_, .error s .configError id, by rw [seqStep_newCheckId_invalid hs hb hv]; rfl⟩
  | newBind => exact atomic_of_goto (.bind s) (seqStep_newBind hs)
  | newWrite n p => exact atomic_of_goto (regStep_atomic _ _ p s) (seqStep_newWrite hs)
  | newBurst p => exact atomic_of_goto (bufStep_atomic p s) (seqStep_newBurst hs)
  | newSelfCheck =>
    rw [seqStep_newSelfCheck hs, selfCheck]
    by_cases hb : s.buf[0] = Config.sentinel
    · exact ⟨_, .dev s .ready, by rw [if_pos hb]; rfl⟩
    · exact ⟨_, .error s .presenceError s.buf[0], by rw [if_neg hb]; rfl⟩
  | updateRead r p => exact atomic_of_goto (regStep_atomic _ _ p s) (seqStep_updateRead hs)
  | updateStore r => exact atomic_of_goto (.tmp s r) (seqStep_updateStore hs)
  | updateCommit => exact atomic_of_goto (.readings s) (seqStep_updateCommit hs)
  | get w => exact atomic_of_goto (.answer s (s.answer w)) (seqStep_get hs)
  | destroy stage =>
    cases stage with
    | release => exact atomic_of_goto (.release s) (seqStep_destroyRelease hs)
    | dev =>
      cases hb : s.params.backend with
      | real => exact atomic_of_goto (.dev s .uninitialized) (seqStep_destroyDev_real hs hb)
      | stub => exact atomic_of_goto (.dev s .uninitialized) (seqStep_destroyDev_stub hs hb)
    | prox => exact atomic_of_goto (.prox s) (seqStep_destroyProx hs)
    | freq => exact atomic_of_goto (.freq s) (seqStep_destroyFreq hs)

/-! ### What an atomic step leaves alone -/

/-- No step writes the build or the host's side. -/
theorem AtomicStep.frame {s t : State} (h : AtomicStep s t) :
    t.params = s.params ∧ t.pending = s.pending ∧ t.liveIds = s.liveIds := by
  cases h <;> exact ⟨rfl, rfl, rfl⟩

theorem AtomicStep.log {s t : State} (h : AtomicStep s t) : t.log = s.log ∨ ∃ e, t.log = e :: s.log := by
  cases h with
  | bind | release | di | cs | clk | sample | wait | pad => exact .inr ⟨_, rfl⟩
  | none | tx | rx | tmp | buf | id | dev | readings | prox | freq | error | answer => exact .inl rfl

theorem seqStep_frame (s : State) : (seqStep s).params = s.params ∧ (seqStep s).pending = s.pending ∧
    (seqStep s).liveIds = s.liveIds := by
  obtain ⟨t, ht, he⟩ := sequencerStepIsAtomic s
  rw [he]
  exact ht.frame

@[simp] theorem seqStep_params (s : State) : (seqStep s).params = s.params := (seqStep_frame s).1
@[simp] theorem seqStep_pending (s : State) : (seqStep s).pending = s.pending := (seqStep_frame s).2.1

theorem seqStep_log (s : State) : (seqStep s).log = s.log ∨ ∃ e, (seqStep s).log = e :: s.log := by
  obtain ⟨t, ht, he⟩ := sequencerStepIsAtomic s
  rw [he]
  exact ht.log

/-- Only a getter's position returns a value (R188). -/
theorem seqStep_returned {s : State} (h : ∀ w, s.seq ≠ .get w) : (seqStep s).returned = s.returned := by
  cases hs : s.seq with
  | idle => rw [seqStep_idle hs]
  | newCheckId id =>
    cases hb : s.params.backend with
    | stub => rw [seqStep_newCheckId_stub hs hb]; rfl
    | real =>
      by_cases hv : id ∈ s.params.validIds
      · rw [seqStep_newCheckId_valid hs hb hv]; rfl
      · rw [seqStep_newCheckId_invalid hs hb hv]; rfl
  | newBind => rw [seqStep_newBind hs]; rfl
  | newWrite n p => rw [seqStep_newWrite hs]; exact (regStep_dataPath _ _ p s).returned
  | newBurst p => rw [seqStep_newBurst hs]; exact (bufStep_dataPath p s).returned
  | newSelfCheck => rw [seqStep_newSelfCheck hs, selfCheck]; split <;> rfl
  | updateRead r p => rw [seqStep_updateRead hs]; exact (regStep_dataPath _ _ p s).returned
  | updateStore r => rw [seqStep_updateStore hs]; rfl
  | updateCommit => rw [seqStep_updateCommit hs]; rfl
  | get w => exact absurd hs (h w)
  | destroy stage =>
    cases stage with
    | release => rw [seqStep_destroyRelease hs]; rfl
    | dev =>
      cases hb : s.params.backend with
      | real => rw [seqStep_destroyDev_real hs hb]; rfl
      | stub => rw [seqStep_destroyDev_stub hs hb]; rfl
    | prox => rw [seqStep_destroyProx hs]; rfl
    | freq => rw [seqStep_destroyFreq hs]; rfl

/-- Settles O41: an atomic step has at most one event, and only a getter's position answers. -/
theorem sequencerStepIsOneEvent : Obligations.SequencerStepIsOneEvent := by
  intro s
  refine ⟨seqStep_log s, ?_⟩
  by_cases h : ∃ w, s.seq = .get w
  · obtain ⟨w, hw⟩ := h
    exact .inr ⟨s.answer w, w, hw, by rw [seqStep_get hw]; rfl⟩
  · exact .inl (seqStep_returned fun w hw => h ⟨w, hw⟩)

end Sys2Proof.Machine
end

section
/-! PROOF. A host command run whole and run position by position end in the same state; the step of the machine on
each kind of request (O32, O49). -/

namespace Sys2Proof.Machine

/-! ### A whole command is a run of the sequencer (R36, R170, R250) -/

theorem State.goto_self {s : State} {q : Seq} (h : s.seq = q) : s.goto q = s := by
  subst h
  rfl

/-- Once idle, the block stays where it is. -/
theorem seqRun_of_idle {m n : Nat} {s t : State} (h : seqRun m s = t) (ht : t.seq = .idle) (hmn : m ≤ n) :
    seqRun n s = t := by
  obtain ⟨k, rfl⟩ := Nat.exists_eq_add_of_le hmn
  rw [seqRun_add, h, seqRun_idle k t ht]

/-- A property that a step of the sequencer keeps is kept by a run of it. -/
theorem seqRun_keeps {P : State → Prop} (h : ∀ s, P s → P (seqStep s)) (n : Nat) (s : State) (hs : P s) :
    P (seqRun n s) := by
  induction n generalizing s with
  | zero => exact hs
  | succ n ih => exact ih (seqStep s) (h s hs)

/-- The accepted command `i` ends in the idle state `t`, run whole and run position by position from `s`. -/
structure CommandEnds (i : Instr) (s t : State) : Prop where
  whole : exec i s = .next t
  idle : t.seq = .idle
  stepwise : ∃ n ≤ 2093, seqRun n (s.goto (startFrame i s)) = t

theorem selfCheck_seq {s : State} (h : s.seq = .idle) : (selfCheck s).seq = .idle := by
  unfold selfCheck
  split
  · exact h
  · rfl

theorem newSteps_le (p : Params) : newSteps p ≤ 2093 := by
  unfold newSteps burstSteps
  split <;> split <;> omega

section Accepted

variable {s : State}

theorem new_ends {id : Byte} (ha : s.accepts (.new id) = true) : ∃ t, CommandEnds (.new id) s t := by
  obtain ⟨hs, -⟩ := (acceptsNew_iff s id).1 ha
  cases hb : s.params.backend with
  | stub =>
    refine ⟨setDev .ready s, by simp only [exec, execNew, if_pos ha, hb], hs, 1, by decide, ?_⟩
    exact (seqStep_newCheckId_stub (s := s.goto (.newCheckId id)) rfl hb).trans
      (State.goto_self (s := setDev .ready s) hs)
  | real =>
    have hx : exec (.new id) s = .next (construct id s) := by simp only [exec, execNew, if_pos ha, hb]
    by_cases hv : id ∈ s.params.validIds
    · have hi : (construct id s).seq = .idle := by
        rw [construct_eq id s hv]
        exact selfCheck_seq hs
      refine ⟨_, hx, hi, newSteps s.params, newSteps_le _, ?_⟩
      exact (new_run id s hb hv).trans (State.goto_self hi)
    · rw [construct_badId id s hv] at hx
      exact ⟨_, hx, rfl, 1, by decide, seqStep_newCheckId_invalid (s := s.goto (.newCheckId id)) rfl hb hv⟩

theorem update_ends (ha : s.accepts .update = true) : ∃ t, CommandEnds .update s t := by
  obtain ⟨hs, -⟩ := (acceptsOnReady_iff s).1 ha
  cases hb : s.params.backend with
  | stub =>
    refine ⟨s, by simp only [exec, execUpdate, if_pos ha, hb], hs, 0, by decide, ?_⟩
    rw [show startFrame .update s = .idle by simp [startFrame, hb]]
    exact State.goto_self hs
  | real =>
    have hx : exec .update s = .next (commitReadings (updateIndices.foldl readInto s)) := by
      simp only [exec, execUpdate, if_pos ha, hb]
    have hi : (updateIndices.foldl readInto s).seq = .idle := by rw [updateReads_eq]; exact hs
    have hr := reads_run s
    generalize updateIndices.foldl readInto s = u at hx hi hr
    refine ⟨_, hx, hi, 605 + 1, by decide, ?_⟩
    rw [show startFrame .update s = .updateRead 0 .assert by simp [startFrame, hb], seqRun_add, hr]
    exact (seqStep_updateCommit (s := u.goto .updateCommit) rfl).trans (State.goto_self (s := commitReadings u) hi)

theorem getData_ends (ha : s.accepts .getData = true) : ∃ t, CommandEnds .getData s t := by
  obtain ⟨hs, -⟩ := (acceptsOnReady_iff s).1 ha
  refine ⟨s.give (s.answer .data), by simp only [exec, execGetData, if_pos ha, State.answer], hs, 1, by decide, ?_⟩
  exact (seqStep_get (s := s.goto (.get .data)) rfl).trans (State.goto_self (s := s.give (s.answer .data)) hs)

theorem getFrequency_ends (ha : s.accepts .getFrequency = true) : ∃ t, CommandEnds .getFrequency s t := by
  obtain ⟨hs, -⟩ := (acceptsOnReady_iff s).1 ha
  refine ⟨s.give (s.answer .frequency), by simp only [exec, execGetFrequency, if_pos ha, State.answer], hs, 1,
    by decide, ?_⟩
  exact (seqStep_get (s := s.goto (.get .frequency)) rfl).trans
    (State.goto_self (s := s.give (s.answer .frequency)) hs)

theorem destroy_ends (ha : s.accepts .destroy = true) : ∃ t, CommandEnds .destroy s t := by
  obtain ⟨hs, -⟩ := (acceptsOnReady_iff s).1 ha
  have hx : exec .destroy s = .next (teardown s) := by simp only [exec, execDestroy, if_pos ha]
  cases hb : s.params.backend with
  | stub =>
    refine ⟨setDev .uninitialized s, by simp only [hx, teardown, hb], hs, 1, by decide, ?_⟩
    rw [show startFrame .destroy s = .destroy .dev by simp [startFrame, hb]]
    exact (seqStep_destroyDev_stub (s := s.goto (.destroy .dev)) rfl hb).trans
      (State.goto_self (s := setDev .uninitialized s) hs)
  | real =>
    refine ⟨clearFreq (clearProx (setDev .uninitialized (releaseLines s))), by simp only [hx, teardown, hb], hs, 4,
      by decide, ?_⟩
    rw [show startFrame .destroy s = .destroy .release by simp [startFrame, hb]]
    have h₁ : seqStep (s.goto (.destroy .release)) = (releaseLines s).goto (.destroy .dev) :=
      seqStep_destroyRelease rfl
    have h₂ : seqStep ((releaseLines s).goto (.destroy .dev)) =
        (setDev .uninitialized (releaseLines s)).goto (.destroy .prox) := seqStep_destroyDev_real rfl hb
    have h₃ (u : State) : seqStep (u.goto (.destroy .prox)) = (clearProx u).goto (.destroy .freq) :=
      seqStep_destroyProx rfl
    have h₄ (u : State) : seqStep (u.goto (.destroy .freq)) = (clearFreq u).goto .idle := seqStep_destroyFreq rfl
    simp only [seqRun]
    rw [h₁, h₂, h₃, h₄]
    exact State.goto_self (s := clearFreq (clearProx (setDev .uninitialized (releaseLines s)))) hs

end Accepted

theorem command_ends {i : Instr} {s : State} (hi : i.isCommand = true) (ha : s.accepts i = true) :
    ∃ t, CommandEnds i s t := by
  cases i with
  | new id => exact new_ends ha
  | update => exact update_ends ha
  | getData => exact getData_ends ha
  | getFrequency => exact getFrequency_ends ha
  | destroy => exact destroy_ends ha
  | transfer | readRegister | writeRegister | readBuffer => exact absurd hi Bool.false_ne_true

/-- A command that is not accepted changes nothing (R170). -/
theorem exec_of_not_accepts {i : Instr} {s : State} (hi : i.isCommand = true) (ha : ¬ s.accepts i = true) :
    exec i s = .next s := by
  cases i with
  | new id => exact congrArg _ (if_neg ha)
  | update | getData | getFrequency | destroy => exact congrArg _ (if_neg ha)
  | transfer | readRegister | writeRegister | readBuffer => exact absurd hi Bool.false_ne_true

/-- A host command run whole ends, idle, where the sequencer takes it. -/
theorem exec_eq_seqRun {i : Instr} {s : State} (hi : i.isCommand = true) (hs : s.seq = .idle) :
    exec i s = .next (seqRun 2093 (beginCommand i s)) ∧ (seqRun 2093 (beginCommand i s)).seq = .idle := by
  unfold beginCommand
  by_cases ha : s.accepts i = true
  · obtain ⟨t, hx, ht, n, hn, hr⟩ := command_ends hi ha
    rw [if_pos ha, seqRun_of_idle hr ht hn]
    exact ⟨hx, ht⟩
  · rw [if_neg ha, seqRun_idle _ s hs]
    exact ⟨exec_of_not_accepts hi ha, hs⟩

/-! ### The step of the machine -/

section Step

variable {s : State} {rest : List Request}

theorem step_of_command {code : BitVec 3} {id : Byte} {i : Instr} (hs : s.seq = .idle)
    (hp : s.pending = .command code id :: rest) (hd : decode .H [code.setWidth 8, id] = .ok i) :
    step s = .next (beginCommand i { s with pending := rest }) := by
  have hc : portCommand code id = .ok i := hd
  simp [step, machineStep, hp, hs, issueCommand, hc]

theorem step_of_op {f : Format} {bytes : List Byte} {i : Instr} (hs : s.seq = .idle)
    (hp : s.pending = .op f bytes :: rest) (hd : decode f bytes = .ok i) :
    step s = exec i { s with pending := rest } := by
  simp [step, machineStep, hp, hs, runWord, hd]

/-- A busy block takes the next step of its command, whatever command waits (R170, R37). -/
theorem step_of_busy (hs : s.seq ≠ .idle) (hr : ∀ r, s.pending ≠ .reset :: r) : step s = .next (seqStep s) := by
  unfold step machineStep
  split
  · exact absurd ‹_› (hr _)
  · exact absurd ‹_› hs
  · exact absurd ‹_› hs
  · exact absurd ‹_› hs
  · rfl

/-- Acceptance reads the status and the build, not what waits. -/
theorem accepts_pending (i : Instr) : ({ s with pending := rest } : State).accepts i = s.accepts i := by
  cases i <;> rfl

theorem startFrame_pending (i : Instr) : startFrame i { s with pending := rest } = startFrame i s := by
  cases i <;> rfl

end Step

/-- Settles O32: each clause by the equation of the step for its kind of request. -/
theorem stepRunsTheDecodedOperation : Obligations.StepRunsTheDecodedOperation := by
  refine ⟨fun s code id rest i hs hp hd => ?_, fun s f bytes rest i hs hp hd => step_of_op hs hp hd, ?_⟩
  · rw [step_of_command hs hp hd, beginCommand, accepts_pending, startFrame_pending]
    rfl
  · intro s nbits w i hd
    have hd' : decode (tableLayout nbits w).1 (tableLayout nbits w).2 = .ok i := by
      unfold decodeTableWord at hd
      cases h : decode (tableLayout nbits w).1 (tableLayout nbits w).2 with
      | error e => rw [h] at hd; cases hd
      | ok j => rw [h] at hd; cases hd; rfl
    exact step_of_op (s := placeWord s nbits w) rfl rfl hd'

/-- While the command lasts, steps of the machine are steps of the sequencer. -/
theorem run_eq_seqRun (n : Nat) (s : State) (hr : ∀ r, s.pending ≠ .reset :: r)
    (hb : ∀ m < n, (seqRun m s).seq ≠ .idle) : s.run n = .next (seqRun n s) := by
  induction n generalizing s with
  | zero => rfl
  | succ n ih =>
    rw [State.run, step_of_busy (s := s) (hb 0 (by omega)) hr]
    exact ih (seqStep s) (by simpa using hr) fun m hm => hb (m + 1) (by omega)

/-- The word of a command of the port decodes to a host command only. -/
theorem isCommand_of_decode {bytes : List Byte} {i : Instr} (h : decode .H bytes = .ok i) : i.isCommand = true := by
  simp only [decode] at h
  unfold decodeH at h
  repeat' split at h
  all_goals cases h <;> rfl

theorem beginCommand_pending (i : Instr) (s : State) : (beginCommand i s).pending = s.pending := by
  unfold beginCommand
  split <;> rfl

/-- Settles O49: the number is one more than the first number of sequencer steps after which the block is idle. -/
theorem portCommandIsAFiniteRunOfSteps : Obligations.PortCommandIsAFiniteRunOfSteps := by
  intro i code id rest s hs hp hr hd
  obtain ⟨hx, hidle⟩ := exec_eq_seqRun (s := { s with pending := rest }) (isCommand_of_decode hd) hs
  have hstep := step_of_command hs hp hd
  have hpend := beginCommand_pending i { s with pending := rest }
  generalize beginCommand i { s with pending := rest } = u at hx hidle hstep hpend
  have hr' : ∀ r, u.pending ≠ .reset :: r := fun r h => hr r (hpend.symm.trans h)
  have hex : ∃ m, (seqRun m u).seq = .idle := ⟨2093, hidle⟩
  have hfirst (m : Nat) (hm : m ≤ Nat.find hex) : s.run (m + 1) = .next (seqRun m u) := by
    rw [State.run, hstep]
    exact run_eq_seqRun m u hr' fun k hk => Nat.find_min hex (by omega)
  refine ⟨Nat.find hex + 1, by omega, Nat.succ_le_succ (Nat.find_min' hex hidle), ?_, fun m h0 hm => ?_⟩
  · rw [hfirst _ le_rfl, hx, seqRun_of_idle rfl (Nat.find_spec hex) (Nat.find_min' hex hidle)]
  · obtain ⟨k, rfl⟩ : ∃ k, m = k + 1 := ⟨m - 1, by omega⟩
    refine ⟨_, hfirst k (by omega), ?_⟩
    simpa [State.busy] using Nat.find_min hex (show k < Nat.find hex by omega)

end Sys2Proof.Machine
end

section
/-! PROOF. The invariants of R46 at every position of every command (O46). -/

namespace Sys2Proof.Machine

/-! ### A host's program, step by step (R9, R188) -/

theorem beginCommand_params (i : Instr) (s : State) : (beginCommand i s).params = s.params := by
  unfold beginCommand
  split <;> rfl

/-- An operation run whole for the host is a command. -/
theorem isCommand_of_fromHost {f : Format} {bytes : List Byte} {i : Instr}
    (hf : Request.fromHost (.op f bytes) = true) (hd : decode f bytes = .ok i) : i.isCommand = true := by
  cases f with
  | H => exact isCommand_of_decode hd
  | B | R | S => exact absurd hf Bool.false_ne_true

theorem hostOnly_cons {s : State} {r : Request} {rest : List Request} (hp : s.pending = r :: rest) :
    s.hostOnly = true ↔ r.fromHost = true ∧ rest.all Request.fromHost = true := by
  rw [State.hostOnly, hp, List.all_cons, Bool.and_eq_true]

/-- What survives the loss of a request that waits and the beginning of a command of an idle block, and is kept by the
sequencer, is kept by every step of a host's program but a reset: a command run whole is a run of the sequencer. -/
theorem hostStep_keeps {P : State → Prop}
    (hdrop : ∀ s r rest, s.pending = r :: rest → P s → P { s with pending := rest })
    (hbegin : ∀ i s, s.seq = .idle → P s → P (beginCommand i s)) (hseq : ∀ s, P s → P (seqStep s)) {s t : State}
    (hhost : s.hostOnly = true) (hP : P s) (h : step s = .next t) :
    (∃ rest, s.pending = .reset :: rest ∧ t = resetBlock { s with pending := rest }) ∨ P t := by
  rcases step_next_cases h with h | ⟨code, id, rest, hp, hs, rfl⟩ | ⟨f, bytes, rest, hp, hs, h⟩ | ⟨-, -, rfl⟩ |
    ⟨-, rfl⟩
  · exact .inl h
  · right
    rcases issueCommand_cases code id { s with pending := rest } with hi | ⟨i, -, ha, hi⟩
    · rw [hi]
      exact hdrop s _ rest hp hP
    · rw [hi, ← show beginCommand i { s with pending := rest } = _ from if_pos ha]
      exact hbegin i _ hs (hdrop s _ rest hp hP)
  · right
    rcases h with ⟨i, hd, hx⟩ | rfl
    · have hi := isCommand_of_fromHost ((hostOnly_cons hp).1 hhost).1 hd
      rw [(exec_eq_seqRun (s := { s with pending := rest }) hi hs).1] at hx
      rw [← Host.Outcome.next.inj hx]
      exact seqRun_keeps hseq _ _ (hbegin i _ hs (hdrop s _ rest hp hP))
    · exact hdrop s _ rest hp hP
  · exact .inr hP
  · exact .inr (hseq s hP)

/-- The requests that wait stay the host's. -/
theorem hostOnly_drop {s : State} {r : Request} {rest : List Request} (hp : s.pending = r :: rest)
    (h : s.hostOnly = true) : ({ s with pending := rest } : State).hostOnly = true :=
  ((hostOnly_cons hp).1 h).2

theorem beginCommand_hostOnly (i : Instr) (s : State) : (beginCommand i s).hostOnly = s.hostOnly := by
  rw [State.hostOnly, beginCommand_pending, State.hostOnly]

theorem seqStep_hostOnly (s : State) : (seqStep s).hostOnly = s.hostOnly := by
  rw [State.hostOnly, seqStep_pending, State.hostOnly]

/-! ### The levels of the lines through a transfer, a register transaction and a burst (R22, R23, R46) -/

/-- A transfer leaves `CS` alone and inverts the clock between the two toggles of a slot; `false` after the last. -/
theorem xferStep_linesAt {b : Byte} {x : XferPos} {c : Level} {s : State} (h : s.linesAt (c, x.flipped)) :
    (xferStep b x s).1.linesAt (c, (xferStep b x s).2.elim false XferPos.flipped) := by
  obtain ⟨hbound, hcs, hclk⟩ := h
  cases x with
  | loadTx => exact ⟨hbound, hcs, hclk⟩
  | clearRx => exact ⟨hbound, hcs, hclk⟩
  | slot k sub =>
    cases sub with
    | drive | shiftTx | shiftRx | sample | store v => exact ⟨hbound, hcs, hclk⟩
    | edge1 => exact ⟨hbound, hcs, by simp_all [xferStep, XferPos.flipped]⟩
    | edge2 =>
      have hnext : (xferStep b (.slot k .edge2) s).2.elim false XferPos.flipped = false := by
        simp only [xferStep]
        split <;> rfl
      rw [hnext]
      exact ⟨hbound, hcs, by simp_all [xferStep, XferPos.flipped]⟩

/-- The first position asserts `CS`, whatever its level there. -/
theorem regStep_linesAt {a d : Byte} {p : RegPos} {s : State} (hbound : s.bound = true)
    (hcs : p ≠ .assert → s.cs = p.lines.1) (hclk : s.clk = (s.params.clkInit ^^ p.lines.2)) :
    (regStep a d p s).1.linesAt ((regStep a d p s).2.elim (true, false) RegPos.lines) := by
  cases p with
  | assert => exact ⟨hbound, rfl, hclk⟩
  | settle | pad => exact ⟨hbound, hcs nofun, hclk⟩
  | addrPhase x =>
    have ht := xferStep_linesAt (b := a) (x := x) (s := s) ⟨hbound, hcs nofun, hclk⟩
    rw [regStep_addrPhase]
    cases hx : (xferStep a x s).2 <;> rw [hx] at ht <;> exact ht
  | dataPhase x =>
    have ht := xferStep_linesAt (b := d) (x := x) (s := s) ⟨hbound, hcs nofun, hclk⟩
    rw [regStep_dataPhase]
    cases hx : (xferStep d x s).2 <;> rw [hx] at ht <;> exact ht
  | deassert => exact ⟨hbound, rfl, hclk⟩

theorem bufStep_linesAt {p : BufPos} {s : State} (h : s.linesAt p.lines) :
    (bufStep p s).1.linesAt ((bufStep p s).2.elim (true, false) BufPos.lines) := by
  obtain ⟨hbound, hcs, hclk⟩ := h
  cases p with
  | assert =>
    refine ⟨hbound, ?_⟩
    by_cases hz : s.params.burstSettleUs = 0
    · simp only [bufStep, if_pos hz]
      exact ⟨rfl, hclk⟩
    · simp only [bufStep, if_neg hz]
      exact ⟨rfl, hclk⟩
  | settle | pad => exact ⟨hbound, hcs, hclk⟩
  | opcode x =>
    have ht := xferStep_linesAt (b := Config.burstOpcode) (x := x) (s := s) ⟨hbound, hcs, hclk⟩
    rw [bufStep_opcode]
    cases hx : (xferStep Config.burstOpcode x s).2 with
    | some y => rw [hx] at ht; exact ht
    | none =>
      rw [hx] at ht
      simp only [Option.elim]
      split <;> exact ht
  | data j x =>
    have ht := xferStep_linesAt (b := Config.readFill) (x := x) (s := s) ⟨hbound, hcs, hclk⟩
    rw [bufStep_data]
    cases hx : (xferStep Config.readFill x s).2 <;> rw [hx] at ht <;> exact ht
  | store j =>
    refine ⟨hbound, ?_⟩
    by_cases hj : j.val + 1 < 12
    · simp only [bufStep, dif_pos hj]
      exact ⟨hcs, hclk⟩
    · simp only [bufStep, dif_neg hj]
      exact ⟨hcs, hclk⟩
  | deassert => exact ⟨hbound, rfl, hclk⟩

/-- A transaction does not begin twice. -/
theorem regStep_next_ne_assert (a d : Byte) (p : RegPos) (s : State) : (regStep a d p s).2 ≠ some .assert := by
  cases p with
  | assert | settle | pad | deassert => nofun
  | addrPhase x => rw [regStep_addrPhase]; cases (xferStep a x s).2 <;> nofun
  | dataPhase x => rw [regStep_dataPhase]; cases (xferStep d x s).2 <;> nofun

/-- No position of a register transaction writes `BUF`. -/
theorem xferStep_buf (b : Byte) (x : XferPos) (s : State) : (xferStep b x s).1.buf = s.buf := by
  unfold xferStep
  split <;> rfl

theorem regStep_buf (a d : Byte) (p : RegPos) (s : State) : (regStep a d p s).1.buf = s.buf := by
  cases p with
  | assert | settle | pad | deassert => rfl
  | addrPhase x => rw [regStep_addrPhase]; exact xferStep_buf a x s
  | dataPhase x => rw [regStep_dataPhase]; exact xferStep_buf d x s

/-! ### R46 at every position -/

theorem composeFreq_topByte (t : Vector Byte 5) : (composeFreq t).extractLsb 31 24 = 0x00#8 := by
  refine BitVec.eq_of_getLsbD_eq fun i hi => ?_
  have h₂ : t[2].getLsbD (24 + i - 16) = false := BitVec.getLsbD_of_ge _ _ (by omega)
  have h₃ : t[3].getLsbD (24 + i - 8) = false := BitVec.getLsbD_of_ge _ _ (by omega)
  have h₄ : t[4].getLsbD (24 + i) = false := BitVec.getLsbD_of_ge _ _ (by omega)
  simp [composeFreq, h₂, h₃, h₄]

theorem writeLines_of_ne {p : RegPos} (hp : p ≠ .assert) (c : Level) (n : Fin 11) : writeLines c n p = p.lines :=
  if_neg fun h => hp h.2

theorem writeLines_clk (c : Level) (n : Fin 11) (p : RegPos) : (writeLines c n p).2 = p.lines.2 := by
  unfold writeLines
  split
  · rename_i h
    rw [h.2]
    rfl
  · rfl

section RealPositions

variable {s : State}

theorem realRunInv_idle (hs : s.seq = .idle) : s.realRunInv ↔ s.realInv := by
  rw [State.realRunInv, hs]

/-- A constructed block at rest. -/
theorem realInv_of_constructed (h : s.constructed) (hl : s.linesAt (true, false)) : s.realInv := by
  obtain ⟨hdev, hfault, hbuf⟩ := h
  obtain ⟨hbound, hcs, hclk⟩ := hl
  refine ⟨fun _ => ⟨hcs, by simpa using hclk⟩, fun _ => ⟨hfault, hbound, hbuf⟩, ?_, ?_, ?_⟩
  · intro h; rw [hfault] at h; cases h
  · intro h; rw [hfault] at h; cases h
  · intro h; rw [hdev] at h; cases h

/-- A block with no lines that is not constructed and has no error but a bad id. -/
theorem realInv_of_unbound (hbound : s.bound = false) (hdev : s.dev = .uninitialized)
    (hfault : s.fault ≠ some .presenceError) : s.realInv := by
  refine ⟨?_, ?_, fun _ => hbound, fun h => absurd h hfault, fun _ _ => hbound⟩
  · intro h; rw [hbound] at h; cases h
  · intro h; rw [hdev] at h; cases h

/-- The self-check of a bound block (R174, R175, R205). -/
theorem selfCheck_realInv (hdev : s.dev = .uninitialized) (hfault : s.fault = none) (hl : s.linesAt (true, false)) :
    (selfCheck s).realInv := by
  unfold selfCheck
  by_cases hb : s.buf[0] = Config.sentinel
  · rw [if_pos hb]
    exact realInv_of_constructed ⟨rfl, hfault, hb⟩ hl
  · rw [if_neg hb]
    obtain ⟨hbound, hcs, hclk⟩ := hl
    exact ⟨fun _ => ⟨hcs, by simpa using hclk⟩, fun h => by simp [hdev] at h, nofun, fun _ => ⟨hbound, rfl, hb⟩, nofun⟩

theorem newWrite_keeps {n : Fin 11} {p : RegPos} (hs : s.seq = .newWrite n p) (h : s.realRunInv) :
    (seqStep s).realRunInv := by
  simp only [State.realRunInv, hs] at h
  obtain ⟨hdev, hfault, hbound, hcs, hclk⟩ := h
  have hd := regStep_dataPath (writeAddressByte s.params.initSeq[n].1) s.params.initSeq[n].2 p s
  have hne := regStep_next_ne_assert (writeAddressByte s.params.initSeq[n].1) s.params.initSeq[n].2 p s
  have hl := regStep_linesAt (a := writeAddressByte s.params.initSeq[n].1) (d := s.params.initSeq[n].2) hbound
    (fun hp => by rw [hcs, writeLines_of_ne hp]) (by rw [hclk, writeLines_clk])
  rw [seqStep_newWrite hs]
  generalize regStep (writeAddressByte s.params.initSeq[n].1) s.params.initSeq[n].2 p s = r at hd hne hl
  obtain ⟨t, q⟩ := r
  cases q with
  | some q =>
    refine ⟨hd.dev.trans hdev, hd.fault.trans hfault, ?_⟩
    rw [writeLines_of_ne fun hq => hne (congrArg some hq)]
    exact hl
  | none =>
    simp only [afterWrite]
    split
    · refine ⟨hd.dev.trans hdev, hd.fault.trans hfault, ?_⟩
      rw [writeLines, if_neg fun h => by simp at h]
      exact hl
    · exact ⟨hd.dev.trans hdev, hd.fault.trans hfault, hl⟩

theorem newBurst_keeps {p : BufPos} (hs : s.seq = .newBurst p) (h : s.realRunInv) : (seqStep s).realRunInv := by
  simp only [State.realRunInv, hs] at h
  obtain ⟨hdev, hfault, hlines⟩ := h
  have hd := bufStep_dataPath p s
  have hl := bufStep_linesAt hlines
  rw [seqStep_newBurst hs]
  generalize bufStep p s = r at hd hl
  obtain ⟨t, q⟩ := r
  cases q <;> exact ⟨hd.dev.trans hdev, hd.fault.trans hfault, hl⟩

theorem updateRead_keeps {r : Fin 5} {p : RegPos} (hs : s.seq = .updateRead r p) (h : s.realRunInv) :
    (seqStep s).realRunInv := by
  simp only [State.realRunInv, hs] at h
  obtain ⟨⟨hdev, hfault, hbuf⟩, hbound, hcs, hclk⟩ := h
  have hd := regStep_dataPath (readAddressByte (updateAddr s.params r)) Config.readFill p s
  have hb := regStep_buf (readAddressByte (updateAddr s.params r)) Config.readFill p s
  have hl := regStep_linesAt (a := readAddressByte (updateAddr s.params r)) (d := Config.readFill) hbound
    (fun _ => hcs) hclk
  rw [seqStep_updateRead hs]
  generalize regStep (readAddressByte (updateAddr s.params r)) Config.readFill p s = x at hd hb hl
  obtain ⟨t, q⟩ := x
  have hc : t.constructed := ⟨hd.dev.trans hdev, hd.fault.trans hfault, by rw [show t.buf = s.buf from hb]; exact hbuf⟩
  cases q <;> exact ⟨hc, hl⟩

/-- With the real backend a step of the sequencer leads from what its position requires to what the next one does. -/
theorem seqStep_realRunInv (hb : s.params.backend = .real) (h : s.realRunInv) : (seqStep s).realRunInv := by
  cases hs : s.seq with
  | newWrite n p => exact newWrite_keeps hs h
  | newBurst p => exact newBurst_keeps hs h
  | updateRead r p => exact updateRead_keeps hs h
  | idle => rwa [seqStep_idle hs]
  | newCheckId id =>
    simp only [State.realRunInv, hs] at h
    by_cases hv : id ∈ s.params.validIds
    · rw [seqStep_newCheckId_valid hs hb hv]
      exact h
    · rw [seqStep_newCheckId_invalid hs hb hv]
      exact realInv_of_unbound (s := raise .configError id s) h.2.2 h.1 (by simp)
  | newBind =>
    simp only [State.realRunInv, hs] at h
    rw [seqStep_newBind hs]
    obtain ⟨hdev, hfault, -⟩ := h
    exact ⟨hdev, hfault, rfl, rfl, by simp [writeLines]⟩
  | newSelfCheck =>
    simp only [State.realRunInv, hs] at h
    rw [seqStep_newSelfCheck hs]
    obtain ⟨hdev, hfault, hl⟩ := h
    exact selfCheck_realInv hdev hfault hl
  | updateStore r =>
    simp only [State.realRunInv, hs] at h
    rw [seqStep_updateStore hs, afterRead]
    split <;> exact h
  | updateCommit =>
    simp only [State.realRunInv, hs] at h
    rw [seqStep_updateCommit hs]
    exact realInv_of_constructed (s := commitReadings s) h.1 h.2
  | get w =>
    simp only [State.realRunInv, hs] at h
    rw [seqStep_get hs]
    exact realInv_of_constructed (s := s.give (s.answer w)) h.1 h.2
  | destroy stage =>
    simp only [State.realRunInv, hs] at h
    cases stage with
    | release =>
      rw [seqStep_destroyRelease hs]
      obtain ⟨⟨hdev, hfault, -⟩, -⟩ := h
      exact ⟨hdev, hfault, rfl⟩
    | dev =>
      rw [seqStep_destroyDev_real hs hb]
      obtain ⟨-, hfault, hbound⟩ := h
      exact ⟨rfl, hfault, hbound⟩
    | prox =>
      rw [seqStep_destroyProx hs]
      exact h
    | freq =>
      rw [seqStep_destroyFreq hs]
      obtain ⟨hdev, hfault, hbound⟩ := h
      exact realInv_of_unbound (s := clearFreq s) hbound hdev (by simp [hfault])

/-- A command that an idle block accepts meets what its first position requires. -/
theorem beginCommand_realRunInv {i : Instr} (hs : s.seq = .idle) (hb : s.params.backend = .real) (h : s.realRunInv) :
    (beginCommand i s).realRunInv := by
  unfold beginCommand
  by_cases ha : s.accepts i = true
  · rw [if_pos ha]
    rw [realRunInv_idle hs] at h
    have hidle : (s.goto .idle).realRunInv := h
    obtain ⟨hrest, hready, -, -, hunbound⟩ := h
    have hon (h : s.acceptsOnReady = true) : s.constructed ∧ s.linesAt (true, false) := by
      obtain ⟨-, hfault, hdev⟩ := (acceptsOnReady_iff s).1 h
      obtain ⟨-, hbound, hbuf⟩ := hready hdev
      obtain ⟨hcs, hclk⟩ := hrest hbound
      exact ⟨⟨hdev, hfault, hbuf⟩, hbound, hcs, by simpa using hclk⟩
    cases i with
    | new id =>
      obtain ⟨-, hfault, hdev, -⟩ := (acceptsNew_iff s id).1 ha
      exact ⟨hdev, hfault, hunbound hdev hfault⟩
    | update =>
      rw [show startFrame .update s = .updateRead 0 .assert by simp [startFrame, hb]]
      exact hon ha
    | getData => exact hon ha
    | getFrequency => exact hon ha
    | destroy =>
      rw [show startFrame .destroy s = .destroy .release by simp [startFrame, hb]]
      exact hon ha
    | transfer | readRegister | writeRegister | readBuffer => exact hidle
  · rwa [if_neg ha]

end RealPositions

section StubPositions

variable {s : State}

/-- The stand-in passes its positions without a line, a reading or an error (R186). -/
theorem seqStep_stubInv (hb : s.params.backend = .stub) (h : s.stubInv) (hq : s.seq.ofStub = true) :
    (seqStep s).stubInv ∧ (seqStep s).seq.ofStub = true := by
  cases hs : s.seq with
  | idle => rw [seqStep_idle hs]; exact ⟨h, hq⟩
  | newCheckId id => rw [seqStep_newCheckId_stub hs hb]; exact ⟨h, rfl⟩
  | get w => rw [seqStep_get hs]; exact ⟨h, rfl⟩
  | destroy stage =>
    cases stage with
    | dev => rw [seqStep_destroyDev_stub hs hb]; exact ⟨h, rfl⟩
    | release | prox | freq => rw [hs] at hq; cases hq
  | newBind | newWrite | newBurst | newSelfCheck | updateRead | updateStore | updateCommit => rw [hs] at hq; cases hq

theorem startFrame_ofStub (hb : s.params.backend = .stub) (i : Instr) : (startFrame i s).ofStub = true := by
  cases i with
  | update => simp [startFrame, hb, Seq.ofStub]
  | destroy => simp [startFrame, hb, Seq.ofStub]
  | new | getData | getFrequency | transfer | readRegister | writeRegister | readBuffer => rfl

end StubPositions

/-- No step of the sequencer sets a bit of `FREQ[31:24]` (R30). -/
theorem AtomicStep.topByte {s t : State} (h : AtomicStep s t) (hf : s.freq.extractLsb 31 24 = 0x00#8) :
    t.freq.extractLsb 31 24 = 0x00#8 := by
  cases h with
  | readings => exact composeFreq_topByte s.tmp
  | freq => exact (by decide : (0#32).extractLsb 31 24 = 0x00#8)
  | none | bind | release | di | cs | clk | sample | wait | pad | tx | rx | tmp | buf | id | dev | prox | error
  | answer => exact hf

theorem seqStep_topByte {s : State} (hf : s.freq.extractLsb 31 24 = 0x00#8) :
    (seqStep s).freq.extractLsb 31 24 = 0x00#8 := by
  obtain ⟨t, ht, he⟩ := sequencerStepIsAtomic s
  rw [he]
  exact ht.topByte hf

theorem seqStep_blockInv (s : State) (h : s.blockInv) : (seqStep s).blockInv := by
  obtain ⟨hhost, hfreq, hreal, hstub⟩ := h
  refine ⟨(seqStep_hostOnly s).trans hhost, seqStep_topByte hfreq, fun hb => ?_, fun hb => ?_⟩
  · rw [seqStep_params] at hb
    exact seqStep_realRunInv hb (hreal hb)
  · rw [seqStep_params] at hb
    exact seqStep_stubInv hb (hstub hb).1 (hstub hb).2

theorem beginCommand_blockInv (i : Instr) (s : State) (hs : s.seq = .idle) (h : s.blockInv) :
    (beginCommand i s).blockInv := by
  obtain ⟨hhost, hfreq, hreal, hstub⟩ := h
  have hp := beginCommand_params i s
  refine ⟨(beginCommand_hostOnly i s).trans hhost, ?_, fun hb => ?_, fun hb => ?_⟩
  · unfold beginCommand
    split <;> exact hfreq
  · rw [hp] at hb
    exact beginCommand_realRunInv hs hb (hreal hb)
  · rw [hp] at hb
    unfold beginCommand
    split
    · exact ⟨(hstub hb).1, startFrame_ofStub hb i⟩
    · exact hstub hb

theorem resetBlock_blockInv (s : State) (h : s.hostOnly = true) : (resetBlock s).blockInv :=
  ⟨h, (by decide : (0#32).extractLsb 31 24 = 0x00#8), fun _ => realInv_of_unbound (s := resetBlock s) rfl rfl nofun,
    fun _ => ⟨⟨rfl, rfl, rfl, rfl⟩, rfl⟩⟩

/-- The invariant reads the rest of the program in its first clause only. -/
theorem blockInv_drop (s : State) (r : Request) (rest : List Request) (hp : s.pending = r :: rest) (h : s.blockInv) :
    ({ s with pending := rest } : State).blockInv :=
  ⟨hostOnly_drop hp h.1, h.2⟩

/-- Settles O46: the invariant survives the beginning of a command and every step of the sequencer, so also a command
run whole; and a reset gives it anew. -/
theorem blockInvariantsKept : Obligations.BlockInvariantsKept := by
  intro s t h hstep
  rcases hostStep_keeps blockInv_drop beginCommand_blockInv seqStep_blockInv h.1 h hstep with ⟨rest, hp, rfl⟩ | ht
  · exact resetBlock_blockInv _ (hostOnly_drop hp h.1)
  · exact ht

end Sys2Proof.Machine
end

section
/-! PROOF. The frame monitor at every position of every command (O47). -/

namespace Sys2Proof.Machine

/-! ### The frame monitor at every position (R104, R124, R143) -/

/-- The monitor has seen the first, and `TX` holds the second where it says something. -/
def State.shows (s : State) (v : Monitor × Option Byte) : Prop :=
  Monitor.start.watch s.trace = some v.1 ∧ ∀ b, v.2 = some b → s.tx = b

theorem framed_iff (s : State) : s.framed ↔ s.shows s.view := Iff.rfl

section Shows

variable {s t : State} {v w : Monitor × Option Byte}

/-- An event the monitor accepts. -/
theorem State.shows.event {e : LineEvent} (h : s.shows v) (hlog : t.log = e :: s.log) (hsee : v.1.see e = some w.1)
    (htx : ∀ b, w.2 = some b → t.tx = b) : t.shows w := by
  refine ⟨?_, htx⟩
  rw [State.trace, hlog, List.reverse_cons, watch_append, ← State.trace, h.1, Option.bind_some, Monitor.watch, hsee]
  rfl

/-- An update without an event. -/
theorem State.shows.update (h : s.shows v) (hlog : t.log = s.log) (hsee : w.1 = v.1)
    (htx : ∀ b, w.2 = some b → t.tx = b) : t.shows w := by
  refine ⟨?_, htx⟩
  rw [State.trace, hlog, ← State.trace, h.1, hsee]

end Shows

theorem wireBits_length (b : Byte) : (wireBits b).length = 8 := by simp [wireBits]

theorem wireBits_getElem? (b : Byte) {k : Nat} (hk : k < 8) : (wireBits b)[k]? = some (b.getMsbD k) := by
  simp [wireBits, hk]

/-- The level driven in slot `k` is the next level of the byte (R122). -/
theorem take_wireBits_succ (b : Byte) (k : Fin 8) :
    ((wireBits b).take (k.val + 1)).reverse = (b <<< k.val).msb :: ((wireBits b).take k.val).reverse := by
  have hmsb : (b <<< k.val).msb = b.getMsbD k.val := by simp [BitVec.msb]
  rw [List.take_add_one, wireBits_getElem? b k.isLt, hmsb, List.reverse_append]
  rfl

/-- A pad stands between two bytes. -/
theorem see_pad {l : List Level} (h : l.length % 8 = 0) :
    (⟨.slotStart, l⟩ : Monitor).see .pad = some ⟨.slotStart, l⟩ := if_pos h

/-- A frame closes when it is legal. -/
theorem see_deassert {l : List Level} (h : legalFrame l.reverse = true) :
    (⟨.slotStart, l⟩ : Monitor).see (.cs true) = some .start := if_pos h

/-- What is seen of a transfer of `b`, with what `TX` holds. -/
def XferPos.shown (b : Byte) (l : List Level) (x : XferPos) : Monitor × Option Byte := (x.view b l, x.sending b)

/-- A step of a transfer drives the levels of its byte, each in its slot; after the last step all eight are seen. -/
theorem xferStep_shows {b : Byte} {l : List Level} {x : XferPos} {s : State} (h : s.shows (x.shown b l)) :
    (xferStep b x s).1.shows
      ((xferStep b x s).2.elim (⟨.slotStart, (wireBits b).reverse ++ l⟩, none) (XferPos.shown b l)) := by
  cases x with
  | loadTx => exact h.update rfl rfl fun c hc => Option.some.inj hc
  | clearRx =>
    refine h.update rfl rfl fun c hc => ?_
    rw [← Option.some.inj hc]
    exact (h.2 b rfl).trans (BitVec.shiftLeft_zero b).symm
  | slot k sub =>
    cases sub with
    | drive =>
      have htx : s.tx = b <<< k.val := h.2 _ rfl
      refine h.event (e := .di s.tx.msb) rfl ?_ h.2
      simp only [XferPos.shown, XferPos.view, xferStep, Option.elim, take_wireBits_succ, htx]
      rfl
    | shiftTx =>
      have htx : s.tx = b <<< k.val := h.2 _ rfl
      refine h.update rfl rfl fun c hc => ?_
      rw [← Option.some.inj hc, BitVec.shiftLeft_add, ← htx]
      rfl
    | shiftRx => exact h.update rfl rfl h.2
    | edge1 => exact h.event rfl rfl h.2
    | sample => exact h.event rfl rfl h.2
    | store v => exact h.update rfl rfl h.2
    | edge2 =>
      simp only [xferStep]
      split
      · exact h.event rfl rfl h.2
      · have hall : (wireBits b).take (k.val + 1) = wireBits b :=
          List.take_of_length_le (by rw [wireBits_length]; omega)
        refine h.event rfl ?_ nofun
        simp only [XferPos.shown, XferPos.view, hall]
        rfl

/-- A legal frame closes with the deassertion. -/
theorem regStep_shows {a d : Byte} (hlegal : legalFrame (wireBits a ++ wireBits d) = true) {p : RegPos} {s : State}
    (h : s.shows (p.view a d)) :
    (regStep a d p s).1.shows ((regStep a d p s).2.elim (.start, none) (RegPos.view a d)) := by
  cases p with
  | assert => exact h.event rfl rfl nofun
  | settle => exact h.event rfl rfl nofun
  | addrPhase x =>
    have ht := xferStep_shows h
    rw [regStep_addrPhase]
    cases hx : (xferStep a x s).2 with
    | none => rw [hx, Option.elim, List.append_nil] at ht; exact ht
    | some y => rw [hx] at ht; exact ht
  | pad => exact h.event rfl (see_pad (by rw [List.length_reverse, wireBits_length])) nofun
  | dataPhase x =>
    have ht := xferStep_shows h
    rw [regStep_dataPhase]
    cases hx : (xferStep d x s).2 with
    | none => rw [hx] at ht; exact ht
    | some y => rw [hx] at ht; exact ht
  | deassert => exact h.event rfl (see_deassert (by simpa using hlegal)) nofun

/-- A byte of zeros more. -/
theorem burstSeen_succ (j : Nat) : (wireBits Config.readFill).reverse ++ burstSeen j = burstSeen (j + 1) := by
  have hz : (wireBits Config.readFill).reverse = List.replicate 8 false := by decide
  rw [burstSeen, burstSeen, hz, ← List.append_assoc, List.replicate_append_replicate]
  congr 2
  omega

theorem burst_legal : legalFrame (burstSeen 12).reverse = true := by decide

theorem bufStep_shows {p : BufPos} {s : State} (h : s.shows p.view) :
    (bufStep p s).1.shows ((bufStep p s).2.elim (.start, none) BufPos.view) := by
  cases p with
  | assert =>
    simp only [bufStep, Option.elim]
    split
    · exact h.event rfl rfl nofun
    · exact h.event rfl rfl nofun
  | settle => exact h.event rfl rfl nofun
  | opcode x =>
    have ht := xferStep_shows h
    rw [bufStep_opcode]
    cases hx : (xferStep Config.burstOpcode x s).2 with
    | none =>
      rw [hx] at ht
      simp only [Option.elim, List.append_nil] at ht ⊢
      split <;> exact ht
    | some y => rw [hx] at ht; exact ht
  | pad => exact h.event rfl rfl nofun
  | data j x =>
    have ht := xferStep_shows h
    rw [bufStep_data]
    cases hx : (xferStep Config.readFill x s).2 with
    | none => rw [hx, Option.elim, burstSeen_succ] at ht; exact ht
    | some y => rw [hx] at ht; exact ht
  | store j =>
    simp only [bufStep, Option.elim]
    split
    · exact h.update rfl rfl nofun
    · have hj : j.val + 1 = 12 := by omega
      refine h.update rfl ?_ nofun
      simp only [BufPos.view, hj]
  | deassert => exact h.event rfl (see_deassert burst_legal) nofun

/-! ### The trace at every position of every command -/

/-- The positions outside a frame. -/
def Seq.outside : Seq → Bool
  | .newWrite _ _ => false
  | .newBurst _ => false
  | .updateRead _ _ => false
  | .idle => true
  | .newCheckId _ => true
  | .newBind => true
  | .newSelfCheck => true
  | .updateStore _ => true
  | .updateCommit => true
  | .get _ => true
  | .destroy _ => true

section Framed

variable {s t : State}

theorem view_outside (h : s.seq.outside = true) : s.view = (.start, none) := by
  unfold State.view
  cases hs : s.seq with
  | newWrite | newBurst | updateRead => rw [hs] at h; cases h
  | idle | newCheckId | newBind | newSelfCheck | updateStore | updateCommit | get | destroy => rfl

theorem framed_outside (h : s.seq.outside = true) : s.framed ↔ s.shows (.start, none) := by
  rw [framed_iff, view_outside h]

/-- Where no frame is open nothing but the events matters. -/
theorem State.shows.closed (h : s.shows (.start, none)) (hlog : t.log = s.log) : t.shows (.start, none) :=
  h.update hlog rfl nofun

/-- The binding and the release are seen outside frames only. -/
theorem State.shows.closedEvent {e : LineEvent} (h : s.shows (.start, none)) (hlog : t.log = e :: s.log)
    (he : Monitor.start.see e = some Monitor.start) : t.shows (.start, none) :=
  h.event hlog he nofun

/-- A move to a position where no frame is open yet. -/
theorem framed_goto {q : Seq} (hq : (s.goto q).view = (.start, none)) (h : s.shows (.start, none)) :
    (s.goto q).framed := by
  rw [framed_iff, hq]
  exact h

/-- A step of a transaction of two bytes, at the positions `C q` with `e` after them. -/
theorem transaction_framed {a d : Byte} {C : RegPos → Seq} {e : Seq} (hruns : RunsFrame s.params a d C e)
    (hlegal : legalFrame (wireBits a ++ wireBits d) = true)
    (hview : ∀ u : State, ∀ p, u.params = s.params → u.seq = C p → u.view = p.view a d)
    (hend : ∀ u : State, (u.goto e).view = (.start, none)) {p : RegPos} (hs : s.seq = C p) (h : s.framed) :
    (seqStep s).framed := by
  rw [framed_iff, hview s p rfl hs] at h
  have ht := regStep_shows hlegal h
  have hp := (regStep_dataPath a d p s).params
  rw [hruns s p rfl hs]
  generalize regStep a d p s = r at ht hp
  obtain ⟨u, q⟩ := r
  cases q with
  | some q =>
    show (u.goto (C q)).framed
    rw [framed_iff, hview (u.goto (C q)) q hp rfl]
    exact ht
  | none => exact framed_goto (hend u) ht

theorem view_afterWrite (n : Fin 11) (u : State) : (u.goto (afterWrite n)).view = (.start, none) := by
  unfold afterWrite
  split <;> rfl

theorem view_afterRead (r : Fin 5) (u : State) : (u.goto (afterRead r)).view = (.start, none) := by
  unfold afterRead
  split <;> rfl

theorem newWrite_framed {n : Fin 11} {p : RegPos} (hs : s.seq = .newWrite n p) (h : s.framed) : (seqStep s).framed :=
  transaction_framed (newWrite_runs s.params n) (legalFrame_write _ _)
    (fun u p hp hu => by rw [State.view, hu, ← hp]) (view_afterWrite n) hs h

theorem updateRead_framed {r : Fin 5} {p : RegPos} (hs : s.seq = .updateRead r p) (h : s.framed) :
    (seqStep s).framed :=
  transaction_framed (updateRead_runs s.params r) (legalFrame_read _)
    (fun u p hp hu => by rw [State.view, hu, ← hp]) (fun _ => rfl) hs h

theorem newBurst_framed {p : BufPos} (hs : s.seq = .newBurst p) (h : s.framed) : (seqStep s).framed := by
  rw [framed_iff, State.view, hs] at h
  have ht := bufStep_shows h
  rw [seqStep_newBurst hs]
  generalize bufStep p s = r at ht
  obtain ⟨t, q⟩ := r
  cases q <;> exact ht

/-- Outside a frame the sequencer makes no event but the binding and the release. -/
theorem seqStep_framed_outside (hq : s.seq.outside = true) (hf : s.framed) : (seqStep s).framed := by
  have h := (framed_outside hq).1 hf
  cases hs : s.seq with
  | idle => rwa [seqStep_idle hs]
  | newCheckId id =>
    cases hb : s.params.backend with
    | stub => rw [seqStep_newCheckId_stub hs hb]; exact h.closed rfl
    | real =>
      by_cases hv : id ∈ s.params.validIds
      · rw [seqStep_newCheckId_valid hs hb hv]; exact h.closed rfl
      · rw [seqStep_newCheckId_invalid hs hb hv]; exact h.closed rfl
  | newBind => rw [seqStep_newBind hs]; exact h.closedEvent rfl rfl
  | newSelfCheck =>
    rw [seqStep_newSelfCheck hs]
    refine framed_goto rfl (h.closed ?_)
    unfold selfCheck
    split <;> rfl
  | updateStore r =>
    rw [seqStep_updateStore hs]
    exact framed_goto (view_afterRead r _) (h.closed rfl)
  | updateCommit => rw [seqStep_updateCommit hs]; exact h.closed rfl
  | get w => rw [seqStep_get hs]; exact h.closed rfl
  | destroy stage =>
    cases stage with
    | release => rw [seqStep_destroyRelease hs]; exact h.closedEvent rfl rfl
    | dev =>
      cases hb : s.params.backend with
      | real => rw [seqStep_destroyDev_real hs hb]; exact h.closed rfl
      | stub => rw [seqStep_destroyDev_stub hs hb]; exact h.closed rfl
    | prox => rw [seqStep_destroyProx hs]; exact h.closed rfl
    | freq => rw [seqStep_destroyFreq hs]; exact h.closed rfl
  | newWrite | newBurst | updateRead => rw [hs] at hq; cases hq

end Framed

theorem seqStep_framed (s : State) (h : s.framed) : (seqStep s).framed := by
  cases hq : s.seq.outside with
  | true => exact seqStep_framed_outside hq h
  | false =>
    cases hs : s.seq with
    | newWrite n p => exact newWrite_framed hs h
    | newBurst p => exact newBurst_framed hs h
    | updateRead r p => exact updateRead_framed hs h
    | idle | newCheckId | newBind | newSelfCheck | updateStore | updateCommit | get | destroy => rw [hs] at hq; cases hq

/-- A command begins with no frame open. -/
theorem view_startFrame (i : Instr) (s : State) : (s.goto (startFrame i s)).view = (.start, none) := by
  cases i with
  | update => cases hb : s.params.backend <;> simp only [startFrame, hb] <;> rfl
  | destroy => cases hb : s.params.backend <;> simp only [startFrame, hb] <;> rfl
  | new | getData | getFrequency | transfer | readRegister | writeRegister | readBuffer => rfl

theorem beginCommand_framed (i : Instr) (s : State) (hs : s.seq = .idle) (h : s.framed) :
    (beginCommand i s).framed := by
  unfold beginCommand
  split
  · exact framed_goto (view_startFrame i s) ((framed_outside (by rw [hs]; rfl)).1 h)
  · exact h

/-- A reset adds no event: between two commands it leaves whole frames (R230). -/
theorem resetBlock_framed {s : State} (hs : s.seq = .idle) (h : s.framed) : (resetBlock s).framed :=
  State.shows.closed (t := resetBlock s) ((framed_outside (by rw [hs]; rfl)).1 h) rfl

/-- Settles O47: the frames survive the beginning of a command and every step of the sequencer, so also a command run
whole; the premise keeps a reset to the idle block. -/
theorem framesKeptInsideCommands : Obligations.FramesKeptInsideCommands := by
  intro s t h hhost hreset hstep
  rcases hostStep_keeps (P := fun s => s.framed ∧ s.hostOnly = true)
    (fun s r rest hp h => ⟨h.1, hostOnly_drop hp h.2⟩)
    (fun i s hs h => ⟨beginCommand_framed i s hs h.1, (beginCommand_hostOnly i s).trans h.2⟩)
    (fun s h => ⟨seqStep_framed s h.1, (seqStep_hostOnly s).trans h.2⟩) hhost ⟨h, hhost⟩ hstep with ⟨rest, hp, rfl⟩ | ht
  · have hidle : s.seq = .idle := hreset.resolve_right fun hr => hr rest hp
    exact ⟨resetBlock_framed (s := { s with pending := rest }) hidle h, hostOnly_drop hp hhost⟩
  · exact ht

end Sys2Proof.Machine
end

section
/-! PROOF. Every reading of UPDATE can occur (O16). -/

namespace Sys2Proof.Machine

/-! ### Every reading can occur (R68, R185) -/

/-- Answers that make up the bytes given, one per transfer, first bit first (R62). -/
def answersOf (l : List Byte) : List Level := l.flatMap wireBits

theorem answersOf_getElem? (l : List Byte) (m : Nat) {k : Nat} (hk : k < 8) :
    (answersOf l)[8 * m + k]? = l[m]?.map (·.getMsbD k) := by
  induction l generalizing m with
  | nil => simp [answersOf]
  | cons b l ih =>
    have hc : answersOf (b :: l) = wireBits b ++ answersOf l := rfl
    rw [hc]
    cases m with
    | zero =>
      rw [Nat.mul_zero, Nat.zero_add, List.getElem?_append_left (by rwa [wireBits_length]), wireBits_getElem? b hk]
      rfl
    | succ m =>
      rw [List.getElem?_append_right (by rw [wireBits_length]; omega), wireBits_length,
        show 8 * (m + 1) + k - 8 = 8 * m + k by omega]
      exact ih m

/-- Prepared answers are received, byte by byte (R122). -/
theorem received_answersOf {s : State} {l : List Byte} (hs : s.samples = answersOf l) {m : Nat} {b : Byte}
    (hb : l[m]? = some b) : s.received m = b := by
  refine BitVec.eq_of_getMsbD_eq fun k hk => ?_
  rw [State.received, upcomingByte_getMsbD s _ k hk, State.upcoming, hs, answersOf_getElem? l m hk, hb]
  rfl

/-- The bytes of the ten transfers of an UPDATE that reads `p` and `f`: the data phase of each read carries a part of
one of them (R177). -/
def readingBytes (p : Half) (f : BitVec 24) : List Byte :=
  [0, p.extractLsb' 8 8, 0, p.extractLsb' 0 8, 0, f.extractLsb' 16 8, 0, f.extractLsb' 8 8, 0, f.extractLsb' 0 8]

theorem freq_of_bytes (f : BitVec 24) :
    0x00#8 ++ f.extractLsb' 16 8 ++ f.extractLsb' 8 8 ++ f.extractLsb' 0 8 = 0x00#8 ++ f := by
  have h : f.extractLsb' 16 8 ++ f.extractLsb' 8 8 ++ f.extractLsb' 0 8 = f := by
    rw [BitVec.extractLsb'_append_extractLsb'_eq_extractLsb' (by rfl),
      BitVec.extractLsb'_append_extractLsb'_eq_extractLsb' (by rfl)]
    exact BitVec.extractLsb'_eq_self
  conv => rhs; rw [← h]
  rw [BitVec.append_assoc, BitVec.append_assoc, BitVec.append_assoc]
  rfl

/-- UPDATE on a constructed block ends with the readings composed of the bytes its data phases receive. -/
theorem exec_update {s : State} (hreal : s.params.backend = .real) (ha : s.acceptsOnReady = true) :
    ∃ t, exec .update s = .next t ∧ t.prox = s.received 1 ++ s.received 3 ∧
      t.freq = 0x00#8 ++ s.received 5 ++ s.received 7 ++ s.received 9 := by
  have htmp : (updateIndices.foldl readInto s).tmp = s.readings := by rw [updateReads_eq]
  refine ⟨commitReadings (updateIndices.foldl readInto s), ?_, ?_, ?_⟩
  · simp only [exec, execUpdate, State.accepts, if_pos ha, hreal]
  · rw [commitReadings_prox, composeProx_eq, htmp]
    simp only [State.readings, Vector.getElem_ofFn]
  · rw [commitReadings_freq, composeFreq_eq, htmp]
    simp only [State.readings, Vector.getElem_ofFn]

/-- Settles O16: the answers prepared are the bytes of the two readings. -/
theorem everyReadingCanOccur : Obligations.EveryReadingCanOccur := by
  intro s p f hreal hs hfault hdev
  have hr (m : Nat) (b : Byte) (hb : (readingBytes p f)[m]? = some b) :
      ({ s with samples := answersOf (readingBytes p f) } : State).received m = b := received_answersOf rfl hb
  obtain ⟨t, hx, hprox, hfreq⟩ := exec_update (s := { s with samples := answersOf (readingBytes p f) }) hreal
    ((acceptsOnReady_iff _).2 ⟨hs, hfault, hdev⟩)
  refine ⟨_, t, hx, ?_, ?_⟩
  · rw [hprox, hr 1 _ rfl, hr 3 _ rfl]
    exact BitVec.extractLsb'_append_extractLsb'
  · rw [hfreq, hr 5 _ rfl, hr 7 _ rfl, hr 9 _ rfl]
    exact freq_of_bytes f

end Sys2Proof.Machine
end

section
/-! PROOF. What an operation run whole can do, and from it the writers of each register (O24) and that no sample steers
the trace (O28). -/

namespace Sys2Proof.Machine

/-! ### Everything an operation run whole can do -/

/-- What the operation may do in one step, in the terms of Ops.lean and Controller.lean: a command that R170 does not
accept, the operation with the real backend, or the stand-in's (R186). -/
inductive Performs : Instr → State → State → Prop where
  | refused {i s} (hi : i.isCommand = true) (ha : s.accepts i = false) : Performs i s s
  | transfer {b s} (hb : s.params.backend = .real) :
    Performs (.transfer b) s ((transfer b s).give (.byte (transfer b s).rx))
  | readRegister {a s} (hb : s.params.backend = .real) :
    Performs (.readRegister a) s ((readRegister a s).give (.byte (readRegister a s).rx))
  | writeRegister {a v s} (hb : s.params.backend = .real) :
    Performs (.writeRegister a v) s ((writeRegister a v s).give (.byte (writeRegister a v s).rx))
  | readBuffer {s} (hb : s.params.backend = .real) : Performs .readBuffer s (readBuffer s)
  | newBound {id s} (hb : s.params.backend = .real) (ha : s.accepts (.new id) = true) (hv : id ∈ s.params.validIds) :
    Performs (.new id) s (selfCheck (readBuffer (initWrites (bindLines id (setId id s)))))
  | newBadId {id s} (hb : s.params.backend = .real) (ha : s.accepts (.new id) = true) (hv : id ∉ s.params.validIds) :
    Performs (.new id) s (raise .configError id s)
  | update {s} (hb : s.params.backend = .real) (ha : s.accepts .update = true) :
    Performs .update s (commitReadings (updateIndices.foldl readInto s))
  | getData {s} (ha : s.accepts .getData = true) : Performs .getData s (s.give (.data s.dataResult))
  | getFrequency {s} (ha : s.accepts .getFrequency = true) :
    Performs .getFrequency s (s.give (.frequency s.frequencyResult))
  | destroy {s} (hb : s.params.backend = .real) (ha : s.accepts .destroy = true) :
    Performs .destroy s (clearFreq (clearProx (setDev .uninitialized (releaseLines s))))
  | stubTransfer {b s} (hb : s.params.backend = .stub) : Performs (.transfer b) s (s.give (.byte 0x00#8))
  | stubReadRegister {a s} (hb : s.params.backend = .stub) : Performs (.readRegister a) s (s.give (.byte 0x00#8))
  | stubWriteRegister {a v s} (hb : s.params.backend = .stub) : Performs (.writeRegister a v) s (s.give (.byte 0x00#8))
  | stubReadBuffer {s} (hb : s.params.backend = .stub) : Performs .readBuffer s s
  | stubNew {id s} (hb : s.params.backend = .stub) (ha : s.accepts (.new id) = true) :
    Performs (.new id) s (setDev .ready s)
  | stubUpdate {s} (hb : s.params.backend = .stub) (ha : s.accepts .update = true) : Performs .update s s
  | stubDestroy {s} (hb : s.params.backend = .stub) (ha : s.accepts .destroy = true) :
    Performs .destroy s (setDev .uninitialized s)

/-- An accepted command performs what its controller body says. -/
theorem performs_of_accepted {i : Instr} {s t : State} (hi : i.isCommand = true) (ha : s.accepts i = true)
    (h : exec i s = .next t) : Performs i s t := by
  cases i with
  | new id =>
    cases hb : s.params.backend with
    | stub =>
      simp only [exec, execNew, if_pos ha, hb] at h
      cases h
      exact .stubNew hb ha
    | real =>
      simp only [exec, execNew, if_pos ha, hb] at h
      cases h
      by_cases hv : id ∈ s.params.validIds
      · rw [construct, if_pos (by simpa using hv)]
        exact .newBound hb ha hv
      · rw [construct_badId id s hv]
        exact .newBadId hb ha hv
  | update =>
    cases hb : s.params.backend <;> simp only [exec, execUpdate, if_pos ha, hb] at h <;> cases h
    · exact .update hb ha
    · exact .stubUpdate hb ha
  | getData =>
    simp only [exec, execGetData, if_pos ha] at h
    cases h
    exact .getData ha
  | getFrequency =>
    simp only [exec, execGetFrequency, if_pos ha] at h
    cases h
    exact .getFrequency ha
  | destroy =>
    cases hb : s.params.backend <;> simp only [exec, execDestroy, if_pos ha, teardown, hb] at h <;> cases h
    · exact .destroy hb ha
    · exact .stubDestroy hb ha
  | transfer | readRegister | writeRegister | readBuffer => exact absurd hi Bool.false_ne_true

/-- An internal operation has no condition (log 9): it performs its body, or the stand-in's. -/
theorem performs_of_internal {i : Instr} {s t : State} (hi : i.isCommand = false) (h : exec i s = .next t) :
    Performs i s t := by
  cases i with
  | transfer b =>
    cases hb : s.params.backend <;> simp only [exec, execTransfer, hb] at h <;> cases h
    · exact .transfer hb
    · exact .stubTransfer hb
  | readRegister a =>
    cases hb : s.params.backend <;> simp only [exec, execReadRegister, hb] at h <;> cases h
    · exact .readRegister hb
    · exact .stubReadRegister hb
  | writeRegister a v =>
    cases hb : s.params.backend <;> simp only [exec, execWriteRegister, hb] at h <;> cases h
    · exact .writeRegister hb
    · exact .stubWriteRegister hb
  | readBuffer =>
    cases hb : s.params.backend <;> simp only [exec, execReadBuffer, hb] at h <;> cases h
    · exact .readBuffer hb
    · exact .stubReadBuffer hb
  | new | update | getData | getFrequency | destroy => cases hi

theorem exec_performs {i : Instr} {s t : State} (h : exec i s = .next t) : Performs i s t := by
  cases hi : i.isCommand with
  | false => exact performs_of_internal hi h
  | true =>
    cases ha : s.accepts i with
    | true => exact performs_of_accepted hi ha h
    | false =>
      rw [exec_of_not_accepts hi (by simp [ha])] at h
      cases h
      exact .refused hi ha

/-! ### The writers of each register (R47) -/

/-- The self-check of an idle block writes the status only. -/
theorem selfCheck_status {s : State} (hs : s.seq = .idle) :
    ∃ d f i, selfCheck s = { s with dev := d, fault := f, faultInfo := i } := by
  unfold selfCheck
  split
  · exact ⟨.ready, s.fault, s.faultInfo, rfl⟩
  · exact ⟨s.dev, some .presenceError, s.buf[0], by rw [raise, ← hs]⟩

/-- Settles O24: what each operation may do, field by field. -/
theorem registersChangedOnlyByTheirWriters : Obligations.RegistersChangedOnlyByTheirWriters := by
  intro i s t h
  cases exec_performs h with
  | refused => simp
  | transfer => simp [transfer_eq]
  | readRegister => simp [readRegister, registerFrame_eq]
  | writeRegister => simp [writeRegister, registerFrame_eq]
  | readBuffer => simp [readBuffer_eq]
  | @newBound id _ _ ha =>
    obtain ⟨hs, -⟩ := (acceptsNew_iff s id).1 ha
    obtain ⟨d, f, i, hc⟩ := selfCheck_status (s := readBuffer (initWrites (bindLines id (setId id s))))
      (by rw [constructed_eq]; exact hs)
    rw [hc, constructed_eq]
    simp
  | newBadId hb ha =>
    obtain ⟨hs, -⟩ := (acceptsNew_iff s _).1 ha
    simp [hs]
  | update => simp [updateReads_eq]
  | getData | getFrequency | destroy => simp
  | stubTransfer | stubReadRegister | stubWriteRegister | stubReadBuffer | stubNew | stubUpdate | stubDestroy => simp

/-! ### The events of an operation, and the samples among them (R37, R249) -/

/-- The line events that an operation run whole adds, in order: none of a refused command, none of the stand-in. -/
def State.events (s : State) (i : Instr) : List LineEvent :=
  if s.params.backend = .stub ∨ s.accepts i = false then []
  else match i with
    | .transfer b => transferEvents s.clk b (s.received 0)
    | .readRegister a => registerEvents s.clk (readAddressByte a) Config.readFill (s.received 0) (s.received 1)
    | .writeRegister a v => registerEvents s.clk (writeAddressByte a) v (s.received 0) (s.received 1)
    | .readBuffer => burstEvents s.params s.clk (s.received 0) ((List.range 12).map fun j => s.received (j + 1))
    | .new id => if id ∈ s.params.validIds then newEvents s.params id s.received else []
    | .update => updateEvents s.params s.clk s.received
    | .getData => []
    | .getFrequency => []
    | .destroy => [.release]

theorem events_of_stub {s : State} (hb : s.params.backend = .stub) (i : Instr) : s.events i = [] := if_pos (.inl hb)

theorem events_of_refused {s : State} {i : Instr} (ha : s.accepts i = false) : s.events i = [] := if_pos (.inr ha)

theorem capture_toList (s : State) (m : Nat) :
    (s.capture m).toList = (List.range 12).map fun j => s.received (m + j) := by
  simp [State.capture, List.range, List.range.loop, Vector.toList_ofFn, List.ofFn_succ]

theorem selfCheck_log (s : State) : (selfCheck s).log = s.log := by
  unfold selfCheck
  split <;> rfl

/-- The trace grows by the operation's events. -/
theorem performs_log {i : Instr} {s t : State} (h : Performs i s t) : t.log = (s.events i).reverse ++ s.log := by
  cases h with
  | refused _ ha => rw [events_of_refused ha]; rfl
  | transfer hb => rw [transfer_eq]; simp [State.events, hb, State.accepts, State.received]
  | readRegister hb => rw [readRegister, registerFrame_eq]; simp [State.events, hb, State.accepts, State.received]
  | writeRegister hb => rw [writeRegister, registerFrame_eq]; simp [State.events, hb, State.accepts, State.received]
  | readBuffer hb => rw [readBuffer_eq]; simp [State.events, hb, State.accepts, capture_toList, Nat.add_comm]
  | newBound hb ha hv => rw [selfCheck_log, constructed_eq]; simp [State.events, hb, ha, hv]
  | newBadId hb ha hv => simp [State.events, hb, ha, hv]
  | update hb ha => rw [commitReadings_log, updateReads_eq]; simp [State.events, hb, ha]
  | getData | getFrequency => simp [State.events]
  | destroy hb ha => simp [State.events, hb, ha]
  | stubTransfer hb | stubReadRegister hb | stubWriteRegister hb | stubReadBuffer hb => rw [events_of_stub hb]; rfl
  | stubNew hb | stubUpdate hb | stubDestroy hb => rw [events_of_stub hb]; rfl

theorem exec_trace {i : Instr} {s t : State} (h : exec i s = .next t) : t.trace = s.trace ++ s.events i := by
  rw [State.trace, performs_log (exec_performs h), List.reverse_append, List.reverse_reverse, State.trace]

/-- Other answers of the environment change an operation's events only in the levels sampled. -/
theorem events_skeleton (s : State) (i : Instr) (samples : List Level) (drawn : Nat) :
    (s.events i).map LineEvent.skeleton =
      (({ s with samples := samples, drawn := drawn } : State).events i).map LineEvent.skeleton := by
  have ha : ({ s with samples := samples, drawn := drawn } : State).accepts i = s.accepts i := by cases i <;> rfl
  simp only [State.events, ha]
  split
  · rfl
  · cases i with
    | transfer b => exact transferEvents_skeleton _ _ _ _
    | readRegister a => exact registerEvents_skeleton _ _ _ _ _ _ _
    | writeRegister a v => exact registerEvents_skeleton _ _ _ _ _ _ _
    | readBuffer => exact burstEvents_skeleton _ _ _ _ _ _ _
    | new id =>
      by_cases hv : id ∈ s.params.validIds
      · simp only [if_pos hv]
        exact newEvents_skeleton _ _ _ _
      · simp only [if_neg hv]
    | update => exact updateEvents_skeleton _ _ _ _
    | getData | getFrequency | destroy => rfl

/-- Settles O28: both traces are that of the start state and the operation's events. -/
theorem samplesDoNotSteerTheTrace : Obligations.SamplesDoNotSteerTheTrace := by
  intro i s t u samples drawn ht hu
  rw [exec_trace ht, exec_trace hu, List.map_append, List.map_append, events_skeleton s i samples drawn]
  rfl

end Sys2Proof.Machine
end

section
/-! PROOF. What every step of the machine keeps: an error until a reset (O29), the top byte of `FREQ` (O37), and the
invariants of an idle block that runs whole commands (O36). -/

namespace Sys2Proof.Machine

/-! ### The reset, and that no other step clears `FAULT` (R208, R230) -/

/-- An operation run whole keeps an error: only NEW writes `FAULT`, and a NEW is refused while it is set. -/
theorem exec_fault {i : Instr} {s t : State} (h : exec i s = .next t) (hf : s.fault ≠ none) : t.fault = s.fault := by
  by_contra hne
  obtain ⟨-, -, -, -, -, -, hnew, -⟩ := registersChangedOnlyByTheirWriters i s t h
  obtain ⟨id, rfl⟩ := hnew (.inl hne)
  have ha : ¬ s.accepts (.new id) = true := fun ha => hf ((acceptsNew_iff s id).1 ha).2.1
  rw [exec_of_not_accepts rfl ha] at h
  cases h
  exact hne rfl

theorem atomicStep_fault {s t : State} (h : AtomicStep s t) (hf : s.fault ≠ none) : t.fault ≠ none := by
  cases h with
  | error => simp
  | none | bind | release | di | cs | clk | sample | wait | pad | tx | rx | tmp | buf | id | dev | readings | prox
  | freq | answer => exact hf

theorem seqStep_fault {s : State} (hf : s.fault ≠ none) : (seqStep s).fault ≠ none := by
  obtain ⟨t, ht, he⟩ := sequencerStepIsAtomic s
  rw [he]
  exact (atomicStep_fault ht hf : t.fault ≠ none)

theorem issueCommand_fault (code : BitVec 3) (id : Byte) (s : State) : (issueCommand code id s).fault = s.fault := by
  rcases issueCommand_cases code id s with h | ⟨i, -, -, h⟩ <;> rw [h]
  rfl

/-- Only a reset clears an error. -/
theorem reset_of_fault_cleared {s t : State} (h : step s = .next t) (hf : s.fault ≠ none) (ht : t.fault = none) :
    ∃ rest, s.pending = .reset :: rest := by
  rcases step_next_cases h with ⟨rest, hp, -⟩ | ⟨code, id, rest, -, -, rfl⟩ | ⟨f, bytes, rest, -, -, hx⟩ | ⟨-, -, rfl⟩ |
    ⟨-, rfl⟩
  · exact ⟨rest, hp⟩
  · rw [issueCommand_fault] at ht
    exact absurd ht hf
  · rcases hx with ⟨i, -, hx⟩ | rfl
    · rw [exec_fault hx hf] at ht
      exact absurd ht hf
    · exact absurd ht hf
  · exact absurd ht hf
  · exact absurd ht (seqStep_fault hf)

theorem step_of_reset {s : State} {rest : List Request} (hp : s.pending = .reset :: rest) :
    step s = .next (resetBlock { s with pending := rest }) := by
  simp [step, machineStep, hp]

/-- Settles O29: the reset field by field, and `FAULT` over every other step. -/
theorem resetEvent : Obligations.ResetEvent := by
  refine ⟨fun s rest hp => ⟨_, step_of_reset hp, ?_⟩, fun s t => reset_of_fault_cleared⟩
  simp [State.linesOut, State.trace]

/-! ### `FREQ[31:24]` (R30) -/

/-- An operation run whole by an idle block: an internal one does not write `FREQ`, a command is a run of the
sequencer. -/
theorem exec_topByte {i : Instr} {s t : State} (hs : s.seq = .idle) (h : exec i s = .next t)
    (hf : s.freq.extractLsb 31 24 = 0x00#8) : t.freq.extractLsb 31 24 = 0x00#8 := by
  by_cases hi : i.isCommand = true
  · rw [(exec_eq_seqRun hi hs).1] at h
    rw [← Host.Outcome.next.inj h]
    refine seqRun_keeps (P := fun u => u.freq.extractLsb 31 24 = 0x00#8) (fun _ => seqStep_topByte) _ _ ?_
    unfold beginCommand
    split <;> exact hf
  · obtain ⟨-, -, -, -, hreadings, -⟩ := registersChangedOnlyByTheirWriters i s t h
    have he : t.freq = s.freq := by
      by_contra hne
      rcases hreadings (.inr hne) with rfl | rfl <;> exact hi rfl
    rwa [he]

/-- Settles O37: a step is a reset, which clears `FREQ`, the beginning of a command, an operation run whole, or a step
of the sequencer. -/
theorem frequencyTopByteStaysZero : Obligations.FrequencyTopByteStaysZero := by
  intro s t hf h
  rcases step_next_cases h with ⟨rest, -, rfl⟩ | ⟨code, id, rest, -, -, rfl⟩ | ⟨f, bytes, rest, -, hs, hx⟩ |
    ⟨-, -, rfl⟩ | ⟨-, rfl⟩
  · exact (by decide : (0#32).extractLsb 31 24 = 0x00#8)
  · rcases issueCommand_cases code id { s with pending := rest } with he | ⟨i, -, -, he⟩ <;> rw [he] <;> exact hf
  · rcases hx with ⟨i, -, hx⟩ | rfl
    · exact exec_topByte (s := { s with pending := rest }) hs hx hf
    · exact hf
  · exact hf
  · exact seqStep_topByte hf

/-! ### The invariants of an idle block (R46) -/

theorem fromHost_of_isWhole {r : Request} (h : r.isWhole = true) : r.fromHost = true := by
  cases r with
  | op f bytes => cases f <;> exact h
  | command code id => cases h
  | reset => rfl

theorem wholeOnly_cons {s : State} {r : Request} {rest : List Request} (hp : s.pending = r :: rest) :
    s.wholeOnly = true ↔ r.isWhole = true ∧ rest.all Request.isWhole = true := by
  rw [State.wholeOnly, hp, List.all_cons, Bool.and_eq_true]

theorem hostOnly_of_wholeOnly {s : State} (h : s.wholeOnly = true) : s.hostOnly = true :=
  List.all_eq_true.2 fun r hr => fromHost_of_isWhole (List.all_eq_true.1 h r hr)

/-- An idle block that runs whole commands is idle again after every step, with such commands waiting (log 7). -/
theorem wholeStep_idle {s t : State} (hs : s.seq = .idle) (hw : s.wholeOnly = true) (h : step s = .next t) :
    t.seq = .idle ∧ t.wholeOnly = true := by
  rcases step_next_cases h with ⟨rest, hp, rfl⟩ | ⟨code, id, rest, hp, -, -⟩ | ⟨f, bytes, rest, hp, -, hx⟩ |
    ⟨-, -, rfl⟩ | ⟨hn, -⟩
  · exact ⟨rfl, ((wholeOnly_cons hp).1 hw).2⟩
  · exact absurd ((wholeOnly_cons hp).1 hw).1 Bool.false_ne_true
  · have hrest := ((wholeOnly_cons hp).1 hw).2
    rcases hx with ⟨i, -, hx⟩ | rfl
    · obtain ⟨-, -, -, -, -, -, -, -, hseq, -, hpend, -⟩ := registersChangedOnlyByTheirWriters i _ t hx
      exact ⟨hseq.trans hs, by rw [State.wholeOnly, hpend]; exact hrest⟩
    · exact ⟨hs, hrest⟩
  · exact ⟨hs, hw⟩
  · exact absurd hs hn

/-- At rest the invariant of R9's grain is that of an idle block. -/
theorem blockInv_iff_idleInv {s : State} (hs : s.seq = .idle) (hw : s.wholeOnly = true) : s.blockInv ↔ s.idleInv := by
  have hq : Seq.idle.ofStub = true := rfl
  simp only [State.blockInv, State.idleInv, realRunInv_idle hs, hostOnly_of_wholeOnly hw, hs, hw, hq, and_true,
    true_and]

/-- Settles O36: such a block meets the invariant of R9's grain, which every step keeps (O46), and is idle again. -/
theorem idleInvariantsKept : Obligations.IdleInvariantsKept := by
  intro s t h hstep
  have ⟨hs, hw, _⟩ := h
  obtain ⟨hs', hw'⟩ := wholeStep_idle hs hw hstep
  exact (blockInv_iff_idleInv hs' hw').1 (blockInvariantsKept s t ((blockInv_iff_idleInv hs hw).2 h) hstep)

end Sys2Proof.Machine
end

section
/-! PROOF. How many steps of the sequencer a command has left, so that every command ends (O40), and that it ends where
the operation run whole does (O39). -/

namespace Sys2Proof.Machine

/-! ### The steps left at a position (R36, R250, log 17) -/

/-- The steps left in a bit slot. -/
def SubStep.left : SubStep → Nat
  | .drive => 7
  | .shiftTx => 6
  | .shiftRx => 5
  | .edge1 => 4
  | .sample => 3
  | .store _ => 2
  | .edge2 => 1

/-- The steps left in a transfer. -/
def XferPos.left : XferPos → Nat
  | .loadTx => 58
  | .clearRx => 57
  | .slot k sub => 7 * (7 - k.val) + sub.left

/-- The steps left in a register transaction. -/
def RegPos.left : RegPos → Nat
  | .assert => 120
  | .settle => 119
  | .addrPhase x => 60 + x.left
  | .pad => 60
  | .dataPhase x => 1 + x.left
  | .deassert => 1

/-- The most steps left in a burst, in a build that passes both `settle` and `pad`. -/
def BufPos.left : BufPos → Nat
  | .assert => 770
  | .settle => 769
  | .opcode x => 710 + x.left
  | .pad => 710
  | .data j x => 59 * (11 - j.val) + 2 + x.left
  | .store j => 59 * (11 - j.val) + 2
  | .deassert => 1

/-- The most steps left in the running command. -/
def Seq.left : Seq → Nat
  | .idle => 0
  | .newCheckId _ => 2093
  | .newBind => 2092
  | .newWrite n p => 771 + 120 * (10 - n.val) + p.left
  | .newBurst p => 1 + p.left
  | .newSelfCheck => 1
  | .updateRead r p => 121 * (4 - r.val) + 2 + p.left
  | .updateStore r => 121 * (4 - r.val) + 2
  | .updateCommit => 1
  | .get _ => 1
  | .destroy .release => 4
  | .destroy .dev => 3
  | .destroy .prox => 2
  | .destroy .freq => 1

theorem XferPos.left_le (x : XferPos) : x.left ≤ 58 := by
  cases x with
  | loadTx | clearRx => simp [XferPos.left]
  | slot k sub => cases sub <;> simp [XferPos.left, SubStep.left] <;> omega

theorem RegPos.left_le (p : RegPos) : p.left ≤ 120 := by
  cases p with
  | addrPhase x | dataPhase x =>
    have := x.left_le
    simp only [RegPos.left]
    omega
  | assert | settle | pad | deassert => simp [RegPos.left]

theorem BufPos.left_le (p : BufPos) : p.left ≤ 770 := by
  cases p with
  | opcode x | data j x =>
    have := x.left_le
    simp only [BufPos.left]
    omega
  | store j =>
    simp only [BufPos.left]
    omega
  | assert | settle | pad | deassert => simp [BufPos.left]

/-- No command has more than 2093 steps. -/
theorem Seq.left_le (q : Seq) : q.left ≤ 2093 := by
  cases q with
  | newWrite n p | updateRead r p =>
    have := p.left_le
    simp only [Seq.left]
    omega
  | newBurst p =>
    have := p.left_le
    simp only [Seq.left]
    omega
  | updateStore r =>
    simp only [Seq.left]
    omega
  | destroy stage => cases stage <;> simp [Seq.left]
  | idle | newCheckId | newBind | newSelfCheck | updateCommit | get => simp [Seq.left]

/-- Only an idle block has no step left. -/
theorem Seq.eq_idle_of_left {q : Seq} (h : q.left = 0) : q = .idle := by
  cases q with
  | idle => rfl
  | destroy stage => cases stage <;> simp [Seq.left] at h
  | newCheckId | newBind | newWrite | newBurst | newSelfCheck | updateRead | updateStore | updateCommit | get =>
    simp [Seq.left] at h

/-! ### Each step takes one of them -/

/-- After the last step of a transfer none is left. -/
theorem xferStep_left (b : Byte) (x : XferPos) (s : State) : (xferStep b x s).2.elim 0 XferPos.left < x.left := by
  cases x with
  | loadTx | clearRx => simp [xferStep, XferPos.left, SubStep.left]
  | slot k sub =>
    cases sub with
    | edge2 =>
      by_cases hk : k.val + 1 < 8
      · simp only [xferStep, dif_pos hk, Option.elim, XferPos.left, SubStep.left]
        omega
      · simp [xferStep, hk, XferPos.left, SubStep.left]
    | drive | shiftTx | shiftRx | edge1 | sample | store => simp [xferStep, XferPos.left, SubStep.left]

theorem regStep_left (a d : Byte) (p : RegPos) (s : State) : (regStep a d p s).2.elim 0 RegPos.left < p.left := by
  cases p with
  | assert | settle | pad | deassert => simp [regStep, RegPos.left, XferPos.first, XferPos.left]
  | addrPhase x =>
    have h := xferStep_left a x s
    rw [regStep_addrPhase]
    cases hx : (xferStep a x s).2 <;> rw [hx] at h <;> simpa [RegPos.left] using h
  | dataPhase x =>
    have h := xferStep_left d x s
    rw [regStep_dataPhase]
    cases hx : (xferStep d x s).2 <;> rw [hx] at h <;> simpa [RegPos.left] using h

theorem bufStep_left (p : BufPos) (s : State) : (bufStep p s).2.elim 0 BufPos.left < p.left := by
  cases p with
  | assert =>
    simp only [bufStep, Option.elim]
    split <;> simp [BufPos.left, XferPos.first, XferPos.left]
  | settle | pad | deassert => simp [bufStep, BufPos.left, XferPos.first, XferPos.left]
  | opcode x =>
    have h := xferStep_left Config.burstOpcode x s
    rw [bufStep_opcode]
    cases hx : (xferStep Config.burstOpcode x s).2 with
    | some y => rw [hx] at h; simpa [BufPos.left] using h
    | none =>
      rw [hx] at h
      simp only [Option.elim, XferPos.first] at h ⊢
      split
      · simpa [BufPos.left] using h
      · simp [BufPos.left, XferPos.left]
        omega
  | data j x =>
    have h := xferStep_left Config.readFill x s
    rw [bufStep_data]
    cases hx : (xferStep Config.readFill x s).2 <;> rw [hx] at h <;> simpa [BufPos.left] using h
  | store j =>
    by_cases hj : j.val + 1 < 12
    · simp only [bufStep, dif_pos hj, Option.elim, BufPos.left, XferPos.first, XferPos.left]
      omega
    · simp [bufStep, hj, BufPos.left]

theorem afterWrite_left (n : Fin 11) : (afterWrite n).left = 771 + 120 * (10 - n.val) := by
  unfold afterWrite
  split <;> simp only [Seq.left, RegPos.left, BufPos.left] <;> omega

theorem afterRead_left (r : Fin 5) : (afterRead r).left = 121 * (4 - r.val) + 1 := by
  unfold afterRead
  split <;> simp only [Seq.left, RegPos.left] <;> omega

/-- A step of a running command leaves fewer steps, whatever is sampled. -/
theorem seqStep_left {s : State} (hs : s.seq ≠ .idle) : (seqStep s).seq.left < s.seq.left := by
  cases hq : s.seq with
  | idle => exact absurd hq hs
  | newCheckId id =>
    cases hb : s.params.backend with
    | stub => rw [seqStep_newCheckId_stub hq hb]; simp [Seq.left]
    | real =>
      by_cases hv : id ∈ s.params.validIds
      · rw [seqStep_newCheckId_valid hq hb hv]; simp [Seq.left]
      · rw [seqStep_newCheckId_invalid hq hb hv]; simp [Seq.left]
  | newBind => rw [seqStep_newBind hq]; simp [Seq.left, RegPos.left]
  | newWrite n p =>
    have h := regStep_left (writeAddressByte s.params.initSeq[n].1) s.params.initSeq[n].2 p s
    rw [seqStep_newWrite hq, goto_seq]
    cases hx : (regStep (writeAddressByte s.params.initSeq[n].1) s.params.initSeq[n].2 p s).2 <;> rw [hx] at h
    · simp only [afterWrite_left]
      simpa [Seq.left] using h
    · simpa [Seq.left] using h
  | newBurst p =>
    have h := bufStep_left p s
    rw [seqStep_newBurst hq, goto_seq]
    cases hx : (bufStep p s).2 <;> rw [hx] at h <;> simpa [Seq.left] using h
  | newSelfCheck => rw [seqStep_newSelfCheck hq]; simp [Seq.left]
  | updateRead r p =>
    have h := regStep_left (readAddressByte (updateAddr s.params r)) Config.readFill p s
    rw [seqStep_updateRead hq, goto_seq]
    cases hx : (regStep (readAddressByte (updateAddr s.params r)) Config.readFill p s).2 <;> rw [hx] at h <;>
      simpa [Seq.left] using h
  | updateStore r => rw [seqStep_updateStore hq, goto_seq, afterRead_left]; simp [Seq.left]
  | updateCommit => rw [seqStep_updateCommit hq]; simp [Seq.left]
  | get w => rw [seqStep_get hq]; simp [Seq.left]
  | destroy stage =>
    cases stage with
    | release => rw [seqStep_destroyRelease hq]; simp [Seq.left]
    | dev =>
      cases hb : s.params.backend with
      | real => rw [seqStep_destroyDev_real hq hb]; simp [Seq.left]
      | stub => rw [seqStep_destroyDev_stub hq hb]; simp [Seq.left]
    | prox => rw [seqStep_destroyProx hq]; simp [Seq.left]
    | freq => rw [seqStep_destroyFreq hq]; simp [Seq.left]

/-- As many steps as are left make the block idle. -/
theorem seqRun_idle_of_left {n : Nat} {s : State} (h : s.seq.left ≤ n) : (seqRun n s).seq = .idle := by
  induction n generalizing s with
  | zero => exact Seq.eq_idle_of_left (Nat.le_zero.1 h)
  | succ n ih =>
    by_cases hs : s.seq = .idle
    · rw [seqRun_idle _ s hs, hs]
    · have := seqStep_left hs
      exact ih (by omega)

/-- Settles O40: no position has more than 2093 steps left. -/
theorem everyCommandEnds : Obligations.EveryCommandEnds := fun s => seqRun_idle_of_left s.seq.left_le

/-- Settles O39: an accepted command ends where its sequencer run does, a refused one where it began. -/
theorem sequencerRefinesExec : Obligations.SequencerRefinesExec := fun _ _ hi hs => (exec_eq_seqRun hi hs).1

end Sys2Proof.Machine
end

section
/-! PROOF. The state after reset, the status codes and the step of an idle and of a busy block (O30, O31, O34, O35). -/

namespace Sys2Proof.Machine

/-- Settles O30, field by field of the reset state of the decided build. -/
theorem resetState : Obligations.ResetState :=
  ⟨rfl, rfl, rfl, rfl, rfl, rfl, rfl, rfl, rfl, rfl, rfl, rfl, rfl, rfl, rfl, rfl, Nat.succ_pos _⟩

/-- Settles O31: `FAULT` has three values. -/
theorem statusCodes : Obligations.StatusCodes := by
  refine ⟨rfl, rfl, rfl, rfl, rfl, fun f => ?_⟩
  match f with
  | none | some .configError | some .presenceError => decide

theorem step_of_waiting {s : State} (hs : s.seq = .idle) (hp : s.pending = []) : step s = .next s := by
  simp [step, machineStep, hs, hp]

/-- Settles O34 by the equations of the step for an idle and for a busy block. -/
theorem idleWaitsAndBusyRuns : Obligations.IdleWaitsAndBusyRuns :=
  ⟨fun _ => step_of_waiting, fun _ => step_of_busy⟩

/-- Settles O35: no request waits, nothing is bound, and the trace is empty. -/
theorem idleInvariantsAtReset : Obligations.IdleInvariantsAtReset := by
  have htop : State.reset.freq.extractLsb 31 24 = 0x00#8 := (by decide : (0#32).extractLsb 31 24 = 0x00#8)
  have hreal : State.reset.realInv := realInv_of_unbound rfl rfl nofun
  have hstub : State.reset.stubInv := ⟨rfl, rfl, rfl, rfl⟩
  refine ⟨⟨rfl, rfl, htop, fun _ => hreal, fun _ => hstub⟩, ⟨rfl, htop, fun _ => hreal, fun _ => ⟨hstub, rfl⟩⟩, ?_,
    rfl, nofun⟩
  simp [State.wellFramed, State.trace, State.reset, State.resetWith, Monitor.watch]

end Sys2Proof.Machine
end

section
/-! PROOF. The reference responder keeps its registers in canonical form (O45). -/

namespace Sys2Proof.Machine

/-- A completed byte is written, if at all, to the register the 7-bit pointer names (D18). -/
theorem byteDone_wf {r : Responder} (h : r.reg.wf = true) : r.byteDone.reg.wf = true := by
  unfold Responder.byteDone
  split
  · exact h
  · split
    · exact h
    · exact Memory.write_wf r.reg h r.ptr.toNat r.ptr.isLt r.shiftIn

/-- An event changes the registers only by completing a byte. -/
theorem react_wf {r r' : Responder} {e : LineEvent} (h : r.reg.wf = true) (he : r.react e = some r') :
    r'.reg.wf = true := by
  cases e with
  | ck b =>
    simp only [Responder.react] at he
    split at he
    · split at he <;> cases he
      · exact byteDone_wf (r := { r with slot := 0, half := false }) h
      · exact h
    · cases he
      exact h
  | sample b =>
    simp only [Responder.react] at he
    split at he <;> cases he
    exact h
  | cs b => cases b <;> cases he <;> exact h
  | di | wait | pad | bind | release =>
    cases he
    exact h

/-- Settles O45, by induction on the events. -/
theorem responderMemoryStaysCanonical : Obligations.ResponderMemoryStaysCanonical := by
  intro r r' ev
  induction ev generalizing r with
  | nil =>
    intro h hf
    cases hf
    exact h
  | cons e ev ih =>
    intro h hf
    rw [Responder.follows] at hf
    cases he : r.react e with
    | none => rw [he] at hf; cases hf
    | some r₁ =>
      rw [he] at hf
      exact ih r₁ (react_wf h he) hf

end Sys2Proof.Machine
end

section
/-! PROOF. Bit 7 of a register address has no effect (O5), and what a register transaction is under the reference
responder: a read returns its register, a write sets it (O42). -/

namespace Sys2Proof.Machine

/-! ### Bit 7 of the operand (R95, R96) -/

theorem xor_or_mask (a m : Byte) : (a ^^^ m) ||| m = a ||| m := by
  ext i
  cases hm : m[i] <;> simp [hm]

theorem xor_and_mask (a m : Byte) : (a ^^^ ~~~m) &&& m = a &&& m := by
  ext i
  cases hm : m[i] <;> simp [hm]

/-- A read sets bit 7 of the address byte, whatever it was (R95). -/
theorem readAddressByte_flip (a : Byte) : readAddressByte (a ^^^ 0x80#8) = readAddressByte a :=
  xor_or_mask a Config.readFlag

/-- A write clears it (R96). -/
theorem writeAddressByte_flip (a : Byte) : writeAddressByte (a ^^^ 0x80#8) = writeAddressByte a :=
  xor_and_mask a Config.addrMask

theorem readRegister_flip (a : Byte) (s : State) : readRegister (a ^^^ 0x80#8) s = readRegister a s := by
  rw [readRegister, readRegister, readAddressByte_flip]

theorem writeRegister_flip (a v : Byte) (s : State) : writeRegister (a ^^^ 0x80#8) v s = writeRegister a v s := by
  rw [writeRegister, writeRegister, writeAddressByte_flip]

/-- Settles O5: only the address byte depends on the operand, and it is the same. -/
theorem addressBit7HasNoEffect : Obligations.AddressBit7HasNoEffect := by
  intro a v s
  constructor
  · simp only [exec, execReadRegister, readRegister_flip]
  · simp only [exec, execWriteRegister, writeRegister_flip]

theorem readAddressByte_msb (a : Byte) : (readAddressByte a).msb = true := by
  have hflag : Config.readFlag.msb = true := rfl
  rw [readAddressByte, BitVec.msb_or, hflag, Bool.or_true]

theorem writeAddressByte_msb (a : Byte) : (writeAddressByte a).msb = false := by
  have hmask : Config.addrMask.msb = false := rfl
  rw [writeAddressByte, BitVec.msb_and, hmask, Bool.and_false]

/-- The responder's pointer is the low seven bits of the address byte (D18). -/
theorem setWidth_seven_toNat (b : Byte) : (b.setWidth 7).toNat = (b &&& 0x7F#8).toNat := by
  rw [BitVec.toNat_setWidth, BitVec.toNat_and]
  exact (Nat.and_two_pow_sub_one_eq_mod b.toNat 7).symm

/-- A read points at the register `a & 0x7F` (R95). -/
theorem readAddressByte_ptr (a : Byte) : ((readAddressByte a).setWidth 7).toNat = (a &&& 0x7F#8).toNat := by
  have hclear : Config.readFlag &&& 0x7F#8 = 0x00#8 := rfl
  rw [setWidth_seven_toNat, readAddressByte, BitVec.and_or_distrib_right, hclear, BitVec.or_zero]

/-- A write does so too (R96). -/
theorem writeAddressByte_ptr (a : Byte) : ((writeAddressByte a).setWidth 7).toNat = (a &&& 0x7F#8).toNat := by
  rw [setWidth_seven_toNat, writeAddressByte, Config.addrMask, BitVec.and_assoc, BitVec.and_self]

/-! ### The responder over a byte and over a register transaction (D18, R145) -/

/-- The responder after a frame has been opened. -/
def Responder.opened (r : Responder) : Responder :=
  { r with sel := true, n := 0, out := 0x00#8, shiftIn := 0x00#8, slot := 0, half := false }

/-- The responder after a whole byte has been sent to it. -/
def Responder.sent (r : Responder) (b : Byte) : Responder :=
  Responder.byteDone { r with di := b.getLsbD 0, shiftIn := b }

/-- The address byte: it decides the direction and sets the pointer. -/
theorem sent_address {r : Responder} (hn : r.n = 0) (b : Byte) : r.sent b = { r with
    di := b.getLsbD 0, shiftIn := b, rw := b.msb, ptr := b.setWidth 7, n := 1
    out := if b.msb then r.reg.read (b.setWidth 7).toNat else 0x00#8 } := by
  rw [Responder.sent, Responder.byteDone, if_pos hn]

/-- A later byte of a read: the pointer moves on to the register of the next answer. -/
theorem sent_reading {r : Responder} (hn : r.n ≠ 0) (hrw : r.rw = true) (b : Byte) : r.sent b = { r with
    di := b.getLsbD 0, shiftIn := b, ptr := r.ptr + 1, n := r.n + 1, out := r.reg.read (r.ptr + 1).toNat } := by
  rw [Responder.sent, Responder.byteDone, if_neg hn, if_pos hrw]

/-- A later byte of a write is put into the register the pointer names. -/
theorem sent_writing {r : Responder} (hn : r.n ≠ 0) (hrw : r.rw = false) (b : Byte) : r.sent b = { r with
    di := b.getLsbD 0, shiftIn := b, reg := r.reg.write r.ptr.toNat b, ptr := r.ptr + 1, n := r.n + 1
    out := 0x00#8 } := by
  rw [Responder.sent, Responder.byteDone, if_neg hn, if_neg (by simp [hrw])]

/-- A byte ends at the start of a slot. -/
theorem sent_aligned {r : Responder} (hh : r.half = false) (hs : r.slot = 0) (b : Byte) :
    (r.sent b).half = false ∧ (r.sent b).slot = 0 := by
  unfold Responder.sent Responder.byteDone
  split
  · exact ⟨hh, hs⟩
  · split <;> exact ⟨hh, hs⟩

/-- A transfer the responder answers: the byte received is its answer. -/
theorem follows_transfer_some {r r' : Responder} {c : Level} {b q : Byte} (hh : r.half = false) (hs : r.slot = 0)
    (h : r.follows (transferEvents c b q) = some r') : q = r.out ∧ r' = r.sent b := by
  rw [follows_transfer r c b q hh hs] at h
  split at h
  · exact ⟨‹_›, (Option.some.inj h).symm⟩
  · cases h

/-- A register transaction the responder answers: the data phase receives what it puts out after the address byte. -/
theorem follows_register {r r' : Responder} {c : Level} {a d qa qd : Byte}
    (h : r.follows (registerEvents c a d qa qd) = some r') :
    qd = (r.opened.sent a).out ∧ r'.reg = ((r.opened.sent a).sent d).reg := by
  simp only [registerEvents, follows_append, Option.bind_eq_some_iff] at h
  obtain ⟨r₄, ⟨r₃, ⟨r₂, ⟨r₁, hopen, haddr⟩, hpad⟩, hdata⟩, hclose⟩ := h
  cases hopen
  obtain ⟨-, rfl⟩ := follows_transfer_some (r := r.opened) rfl rfl haddr
  cases hpad
  obtain ⟨hhalf, hslot⟩ := sent_aligned (r := r.opened) rfl rfl a
  obtain ⟨hqd, rfl⟩ := follows_transfer_some hhalf hslot hdata
  cases hclose
  exact ⟨hqd, rfl⟩

/-- With bit 7 of the address byte set the register named is received, and none changes. -/
theorem follows_registerRead {r r' : Responder} {c : Level} {a d qa qd : Byte} (ha : a.msb = true)
    (h : r.follows (registerEvents c a d qa qd) = some r') :
    qd = r.reg.read (a.setWidth 7).toNat ∧ r'.reg = r.reg := by
  obtain ⟨hqd, hreg⟩ := follows_register h
  rw [sent_address (r := r.opened) rfl] at hqd hreg
  rw [sent_reading Nat.one_ne_zero ha] at hreg
  exact ⟨hqd.trans (if_pos ha), hreg⟩

/-- With bit 7 clear 0x00 is received, and the register named gets the data byte. -/
theorem follows_registerWrite {r r' : Responder} {c : Level} {a d qa qd : Byte} (ha : a.msb = false)
    (h : r.follows (registerEvents c a d qa qd) = some r') :
    qd = 0x00#8 ∧ r'.reg = r.reg.write (a.setWidth 7).toNat d := by
  obtain ⟨hqd, hreg⟩ := follows_register h
  rw [sent_address (r := r.opened) rfl] at hqd hreg
  rw [sent_writing Nat.one_ne_zero ha] at hreg
  exact ⟨hqd.trans (if_neg (by simp [ha])), hreg⟩

/-! ### The register operations under the responder -/

/-- The events an operation adds are the only ones between the two traces. -/
theorem events_of_trace {i : Instr} {s t : State} {ev : List LineEvent} (h : exec i s = .next t)
    (htrace : t.trace = s.trace ++ ev) : ev = s.events i :=
  List.append_cancel_left (htrace.symm.trans (exec_trace h))

theorem exec_readRegister_returned {a : Byte} {s t : State} (hb : s.params.backend = .real)
    (h : exec (.readRegister a) s = .next t) : t.returned = .byte (s.received 1) :: s.returned := by
  simp only [exec, execReadRegister, hb] at h
  cases h
  simp [readRegister, registerFrame_eq, State.received]

theorem exec_writeRegister_returned {a v : Byte} {s t : State} (hb : s.params.backend = .real)
    (h : exec (.writeRegister a v) s = .next t) : t.returned = .byte (s.received 1) :: s.returned := by
  simp only [exec, execWriteRegister, hb] at h
  cases h
  simp [writeRegister, registerFrame_eq, State.received]

theorem events_readRegister {s : State} (hb : s.params.backend = .real) (a : Byte) : s.events (.readRegister a) =
    registerEvents s.clk (readAddressByte a) Config.readFill (s.received 0) (s.received 1) := by
  simp [State.events, hb, State.accepts]

theorem events_writeRegister {s : State} (hb : s.params.backend = .real) (a v : Byte) :
    s.events (.writeRegister a v) = registerEvents s.clk (writeAddressByte a) v (s.received 0) (s.received 1) := by
  simp [State.events, hb, State.accepts]

/-- Settles O42: either operation is a register transaction the responder answers, and the byte returned is the one
its data phase receives. -/
theorem responderRegisterAccess : Obligations.ResponderRegisterAccess := by
  intro a v s t ev r r' hb htrace hfollows
  constructor
  · intro h
    rw [events_of_trace h htrace, events_readRegister hb] at hfollows
    obtain ⟨hbyte, hreg⟩ := follows_registerRead (readAddressByte_msb a) hfollows
    rw [exec_readRegister_returned hb h, hbyte, readAddressByte_ptr]
    exact ⟨rfl, hreg⟩
  · intro h
    rw [events_of_trace h htrace, events_writeRegister hb] at hfollows
    obtain ⟨hbyte, hreg⟩ := follows_registerWrite (writeAddressByte_msb a) hfollows
    rw [exec_writeRegister_returned hb h, hbyte, ← writeAddressByte_ptr]
    exact ⟨rfl, hreg⟩

end Sys2Proof.Machine
end

section
/-! PROOF. Bit 7 of an address byte (O4), and that decoding and encoding agree in either direction: every operation
(O1), every word (O2), and words written out from the tables (O3). -/

namespace Sys2Proof.Machine

/-! ### Bit 7 of an address byte (R95, R96) -/

/-- `READ_FLAG` is bit 7. -/
@[simp] theorem getElem_readAddressByte (a : Byte) {k : Nat} (hk : k < 8) :
    (readAddressByte a)[k] = (a[k] || decide (k = 7)) := by
  have hflag : Config.readFlag = BitVec.twoPow 8 7 := rfl
  rw [readAddressByte, BitVec.getElem_or, hflag, BitVec.getElem_twoPow]

/-- `ADDR_MASK` is the other seven bits. -/
@[simp] theorem getElem_canonAddr (a : Byte) {k : Nat} (hk : k < 8) :
    (canonAddr a)[k] = (a[k] && !decide (k = 7)) := by
  have hmask : 0x7F#8 = ~~~BitVec.twoPow 8 7 := rfl
  rw [canonAddr, BitVec.getElem_and, hmask, BitVec.getElem_not, BitVec.getElem_twoPow]

/-- An address of the effective range is its own canonical form (R60). -/
theorem canonAddr_of_msb {a : Byte} (h : a.msb = false) : canonAddr a = a := by
  have h₇ : a[7] = false := h
  ext k
  by_cases hk : k = 7
  · subst hk
    simp [h₇]
  · simp [hk]

/-- An address byte with bit 7 set is that of a read (R95). -/
theorem readAddressByte_of_msb {a : Byte} (h : a.msb = true) : readAddressByte a = a := by
  have h₇ : a[7] = true := h
  ext k
  by_cases hk : k = 7
  · subst hk
    simp [h₇]
  · simp [hk]

/-- Bit 7 of the operand does not reach the address byte of a read. -/
theorem readAddressByte_canonAddr (a : Byte) : readAddressByte (canonAddr a) = readAddressByte a := by
  ext k
  by_cases hk : k = 7 <;> simp [hk]

/-- The address byte of a read names the register of its operand (R60). -/
theorem canonAddr_readAddressByte (a : Byte) : canonAddr (readAddressByte a) = canonAddr a := by
  ext k
  by_cases hk : k = 7 <;> simp [hk]

/-- The address byte of a write is the canonical address (R96). -/
theorem writeAddressByte_eq_canonAddr (a : Byte) : writeAddressByte a = canonAddr a := rfl

theorem extractLsb_readAddressByte (a : Byte) : (readAddressByte a).extractLsb 6 0 = a.extractLsb 6 0 := by
  ext k hk
  simp [BitVec.getLsbD_eq_getElem (show k < 8 by omega), show k ≠ 7 by omega]

theorem extractLsb_writeAddressByte (a : Byte) : (writeAddressByte a).extractLsb 6 0 = a.extractLsb 6 0 := by
  ext k hk
  simp [writeAddressByte_eq_canonAddr, BitVec.getLsbD_eq_getElem (show k < 8 by omega), show k ≠ 7 by omega]

/-- Settles O4: the address bytes of the encoder are those of the register operations. -/
theorem addressByteFraming : Obligations.AddressByteFraming := fun a _ =>
  ⟨rfl, readAddressByte_msb a, extractLsb_readAddressByte a, readAddressByte_flip a, rfl, writeAddressByte_msb a,
    extractLsb_writeAddressByte a, writeAddressByte_flip a, rfl⟩

/-! ### Every operation is decoded from its encoding -/

theorem decodeR_read {a : Byte} (ha : a.msb = true) :
    decodeR [a, Config.readFill] = .ok (.readRegister (canonAddr a)) := by
  rw [decodeR, if_pos ha, if_pos rfl]

theorem decodeR_write {a : Byte} (ha : a.msb = false) (d : Byte) :
    decodeR [a, d] = .ok (.writeRegister (canonAddr a) d) := by
  rw [decodeR, if_neg (by simp [ha])]

theorem decodeS_burst : decodeS burstBytes = .ok .readBuffer := if_pos rfl

theorem decode_encode (i : Instr) : decode i.format (encode i) = .ok i.canon := by
  cases i with
  | readRegister a =>
    refine (decodeR_read (readAddressByte_msb a)).trans ?_
    rw [canonAddr_readAddressByte]
    rfl
  | writeRegister a v =>
    refine (decodeR_write (writeAddressByte_msb a) v).trans ?_
    rw [canonAddr_of_msb (writeAddressByte_msb a)]
    rfl
  | readBuffer => exact decodeS_burst
  | transfer | new | update | getData | getFrequency | destroy => rfl

/-- A well-formed operation is in canonical form. -/
theorem canon_of_wf {i : Instr} (h : i.wf = true) : i.canon = i := by
  cases i with
  | readRegister a =>
    rw [Instr.canon, canonAddr_of_msb (by simpa [Instr.wf] using h)]
  | writeRegister a v =>
    rw [Instr.canon, canonAddr_of_msb (by simpa [Instr.wf] using h)]
  | transfer | readBuffer | new | update | getData | getFrequency | destroy => rfl

/-- Settles O1: the decoder answers the canonical form, which a well-formed operation is in. -/
theorem decodeAfterEncode : Obligations.DecodeAfterEncode := by
  refine fun i => ⟨decode_encode i, fun h => ?_⟩
  rw [decode_encode, canon_of_wf h]

/-! ### What each decoder can answer -/

section Decoded

variable {bytes : List Byte} {i : Instr}

theorem decodeB_ok (h : decodeB bytes = .ok i) : ∃ b, bytes = [b] ∧ i = .transfer b := by
  unfold decodeB at h
  split at h <;> cases h
  exact ⟨_, rfl, rfl⟩

theorem decodeR_ok (h : decodeR bytes = .ok i) :
    (∃ a, a.msb = true ∧ bytes = [a, Config.readFill] ∧ i = .readRegister (canonAddr a)) ∨
      ∃ a d, a.msb = false ∧ bytes = [a, d] ∧ i = .writeRegister (canonAddr a) d := by
  unfold decodeR at h
  split at h
  · rename_i a d
    by_cases ha : a.msb = true
    · rw [if_pos ha] at h
      split at h <;> cases h
      rename_i hd
      exact .inl ⟨a, ha, by rw [hd], rfl⟩
    · rw [if_neg ha] at h
      cases h
      exact .inr ⟨a, d, by simpa using ha, rfl, rfl⟩
  · cases h

theorem decodeS_ok (h : decodeS bytes = .ok i) : bytes = burstBytes ∧ i = .readBuffer := by
  unfold decodeS at h
  split at h
  · cases h
    exact ⟨‹_›, rfl⟩
  · split at h <;> cases h

/-- The code of a command decides what it is; the operand lines are NEW's (R101). -/
theorem decodeH_ok (h : decodeH bytes = .ok i) : ∃ c id, bytes = [c, id] ∧
    (c = 0#8 ∧ i = .new id ∨ c = 1#8 ∧ i = .update ∨ c = 2#8 ∧ i = .getData ∨ c = 3#8 ∧ i = .getFrequency ∨
      c = 4#8 ∧ i = .destroy) := by
  unfold decodeH at h
  split at h
  · refine ⟨_, _, rfl, ?_⟩
    split_ifs at h <;> cases h <;> simp [*]
  · cases h

end Decoded

/-- Settles O2, format by format, from what its decoder can answer. -/
theorem encodeAfterDecode : Obligations.EncodeAfterDecode := by
  intro f bytes i h
  cases f with
  | B =>
    obtain ⟨b, rfl, rfl⟩ := decodeB_ok h
    exact ⟨rfl, rfl, fun _ => rfl, nofun, nofun⟩
  | R =>
    rcases decodeR_ok h with ⟨a, ha, rfl, rfl⟩ | ⟨a, d, ha, rfl, rfl⟩
    · have hword : encode (.readRegister (canonAddr a)) = [a, Config.readFill] := by
        show [readAddressByte (canonAddr a), Config.readFill] = _
        rw [readAddressByte_canonAddr, readAddressByte_of_msb ha]
      exact ⟨rfl, (Laws.FormatLength.readRegister a).2, fun _ => hword, nofun, nofun⟩
    · have hword : encode (.writeRegister (canonAddr a) d) = [a, d] := by
        show [writeAddressByte (canonAddr a), d] = _
        rw [canonAddr_of_msb ha, writeAddressByte_eq_canonAddr, canonAddr_of_msb ha]
      exact ⟨rfl, (Laws.FormatLength.writeRegister a d).2, fun _ => hword, nofun, nofun⟩
  | S =>
    obtain ⟨rfl, rfl⟩ := decodeS_ok h
    exact ⟨rfl, rfl, fun _ => rfl, nofun, nofun⟩
  | H =>
    obtain ⟨c, id, rfl, hc⟩ := decodeH_ok h
    rcases hc with ⟨rfl, rfl⟩ | ⟨rfl, rfl⟩ | ⟨rfl, rfl⟩ | ⟨rfl, rfl⟩ | ⟨rfl, rfl⟩
    · exact ⟨rfl, rfl, nofun, fun _ => rfl, fun _ _ => rfl⟩
    all_goals exact ⟨rfl, rfl, nofun, fun _ => rfl, nofun⟩

/-- Settles O3, by running the decoder on each word. -/
theorem specWordsDecode : Obligations.SpecWordsDecode :=
  ⟨rfl, rfl, rfl, rfl, rfl, rfl, rfl, rfl⟩

end Sys2Proof.Machine
end

section
/-! PROOF. UPDATE on a constructed instance (O15), reserved codes (O33), and the frames on the lines at rest (O38). -/

namespace Sys2Proof.Machine

/-! ### UPDATE (R99, R177 to R179) -/

theorem readings_eq (s : State) :
    s.readings = #v[s.received 1, s.received 3, s.received 5, s.received 7, s.received 9] := by
  refine Vector.ext fun k hk => ?_
  rw [State.readings, Vector.getElem_ofFn]
  match k, hk with
  | 0, _ | 1, _ | 2, _ | 3, _ | 4, _ => rfl

theorem exec_update_real {s : State} (hreal : s.params.backend = .real) (ha : s.accepts .update = true) :
    exec .update s = .next (commitReadings (updateIndices.foldl readInto s)) := by
  simp only [exec, execUpdate, if_pos ha, hreal]

/-- Settles O15: the five reads in closed form, then both readings by concatenation. -/
theorem updateNextState : Obligations.UpdateNextState := by
  intro s hreal hs hfault hdev
  have ha : s.accepts .update = true := (acceptsOnReady_iff s).2 ⟨hs, hfault, hdev⟩
  rw [exec_update_real hreal ha, commitReadings, composeProx_eq, composeFreq_eq, updateReads_eq, readings_eq]
  rfl

/-! ### Reserved codes (R103) -/

section Reserved

variable {s : State} {rest : List Request}

/-- A code of the port that decodes to no command leaves the port. -/
theorem step_of_badCommand {code : BitVec 3} {id : Byte} {e : DecodeError} (hs : s.seq = .idle)
    (hp : s.pending = .command code id :: rest) (hd : decode .H [code.setWidth 8, id] = .error e) :
    step s = .next { s with pending := rest } := by
  have hc : portCommand code id = .error e := hd
  simp [step, machineStep, hp, hs, issueCommand, hc]

/-- The same of the word of a reserved code, asked for as a whole. -/
theorem step_of_reservedWord {f : Format} {bytes : List Byte} (hs : s.seq = .idle)
    (hp : s.pending = .op f bytes :: rest) (hd : decode f bytes = .error .reservedCommand) :
    step s = .next { s with pending := rest } := by
  simp [step, machineStep, hp, hs, runWord, hd]

end Reserved

theorem decode_reserved {c : Byte} (hc : c = 0b101#8 ∨ c = 0b110#8 ∨ c = 0b111#8) (id : Byte) :
    decode .H [c, id] = .error .reservedCommand := by
  rcases hc with rfl | rfl | rfl <;> rfl

/-- Settles O33: the decoder answers the same error to either form of a reserved code. -/
theorem reservedCodesAreRefused : Obligations.ReservedCodesAreRefused := by
  refine ⟨fun s code id rest hc hs hp => step_of_badCommand hs hp (decode_reserved ?_ id),
    fun s c id rest hc hs hp => step_of_reservedWord hs hp (decode_reserved hc id)⟩
  rcases hc with rfl | rfl | rfl
  · exact .inl rfl
  · exact .inr (.inl rfl)
  · exact .inr (.inr rfl)

/-! ### The frames between two commands (R104, R143) -/

/-- At rest no frame is open, and `framed` says that the trace is whole frames. -/
theorem framed_iff_wellFramed {s : State} (hs : s.seq = .idle) : s.framed ↔ s.wellFramed = true := by
  have hout : s.seq.outside = true := by rw [hs]; rfl
  rw [framed_outside hout, State.shows, State.wellFramed, beq_iff_eq]
  exact and_iff_left nofun

/-- Settles O38: at rest the frames are those kept at R9's grain (O47), and a step leads to a state at rest. -/
theorem tracesStayWellFramed : Obligations.TracesStayWellFramed := by
  intro s t hs hw hframed hstep
  obtain ⟨hs', hw'⟩ := wholeStep_idle hs hw hstep
  obtain ⟨ht, -⟩ := framesKeptInsideCommands s t ((framed_iff_wellFramed hs).2 hframed) (hostOnly_of_wholeOnly hw)
    (.inl hs) hstep
  exact ⟨(framed_iff_wellFramed hs').1 ht, hs', hw'⟩

end Sys2Proof.Machine
end

section
/-! PROOF. TRANSFER run whole: the next state (O6), the bit driven and sampled in each slot (O7), loopback (O8). -/

namespace Sys2Proof.Machine

/-! ### The Bit Transfer Engine (R121 to R127) -/

/-- Settles O6: TRANSFER's closed form, and the byte handed back. -/
theorem transferNextState : Obligations.TransferNextState := by
  intro b s hreal
  simp only [exec, execTransfer, hreal, transfer_eq]
  rfl

/-- The event that opens slot k drives bit `7-k` (R122). -/
theorem transferEvents_slotStart (c : Level) (b r : Byte) {k : Nat} (hk : k < 8) :
    (transferEvents c b r)[4 * k]? = some (.di (b.getLsbD (7 - k))) := by
  match k, hk with
  | 0, _ | 1, _ | 2, _ | 3, _ | 4, _ | 5, _ | 6, _ | 7, _ => rfl

/-- The k-th answer of the environment is bit `7-k` of the byte received (R122). -/
theorem upcomingByte_getLsbD (s : State) {k : Nat} (hk : k < 8) :
    (s.upcomingByte 0).getLsbD (7 - k) = s.upcoming k := by
  have hmsb : (s.upcomingByte 0).getMsbD k = (s.upcomingByte 0).getLsbD (7 - k) := by
    simp [BitVec.getMsbD_eq_getLsbD, hk]
  rw [← hmsb, upcomingByte_getMsbD s 0 k hk, Nat.zero_add]

/-- Settles O7: the next state of O6 does not depend on what `TX` and `RX` held. -/
theorem transferClosedForm : Obligations.TransferClosedForm := by
  intro b x y s t hreal h
  rw [transferNextState b { s with tx := x, rx := y } hreal] at h
  cases h
  refine ⟨fun k hk => upcomingByte_getLsbD { s with tx := x, rx := y } hk, rfl, fun k hk => ?_⟩
  rw [State.trace, List.reverse_append, List.reverse_reverse, List.getElem?_append_right (by simp),
    List.length_reverse, Nat.add_sub_cancel_left]
  exact transferEvents_slotStart _ _ _ hk

/-- Eight prepared answers that are the levels of `b` make up `b` (R62, R122). -/
theorem upcomingByte_of_wireBits {s : State} {b : Byte} {rest : List Level} (hs : s.samples = wireBits b ++ rest) :
    s.upcomingByte 0 = b := by
  refine BitVec.eq_of_getMsbD_eq fun k hk => ?_
  rw [upcomingByte_getMsbD s 0 k hk, Nat.zero_add, State.upcoming, hs,
    List.getElem?_append_left (by rwa [wireBits_length]), wireBits_getElem? b hk]
  rfl

/-- Settles O8: the premise prepares the levels of `b`, and the next state of O6 takes those eight. -/
theorem transferLoopback : Obligations.TransferLoopback := by
  intro b s rest hreal hs
  have hbyte : s.upcomingByte 0 = b := upcomingByte_of_wireBits hs
  refine ⟨_, transferNextState b s hreal, ?_, ?_⟩
  · rw [hbyte]
  · show s.samples.drop 8 = rest
    rw [hs]
    exact List.drop_left' (wireBits_length b)

end Sys2Proof.Machine
end

section
/-! PROOF. READ_REGISTER and WRITE_REGISTER run whole: the next state (O9); chip-select around the transfers of a
register transaction or a burst (O11). -/

namespace Sys2Proof.Machine

/-! ### The Register Access Layer (R141, R142, R144) -/

theorem exec_readRegister_real {s : State} (hreal : s.params.backend = .real) (a : Byte) : exec (.readRegister a) s =
    .next ((readRegister a s).give (.byte (readRegister a s).rx)) := by
  simp only [exec, execReadRegister, hreal]

theorem exec_writeRegister_real {s : State} (hreal : s.params.backend = .real) (a v : Byte) :
    exec (.writeRegister a v) s = .next ((writeRegister a v s).give (.byte (writeRegister a v s).rx)) := by
  simp only [exec, execWriteRegister, hreal]

/-- Settles O9: either operation is a register transaction, whose closed form is `registerFrame_eq`, and hands back the
byte of its data phase. -/
theorem registerTransactionNextState : Obligations.RegisterTransactionNextState := by
  intro a v s hreal
  constructor
  · rw [exec_readRegister_real hreal, readRegister, registerFrame_eq]
    rfl
  · rw [exec_writeRegister_real hreal, writeRegister, registerFrame_eq]
    rfl

/-! ### Chip-select around the transfers (R143, R163) -/

/-- The events begin with chip-select asserted, end with it deasserted, and do not touch it between. -/
def SelectedThroughout (events : List LineEvent) : Prop :=
  ∃ inner, events = .cs false :: inner ++ [.cs true] ∧ ∀ b, .cs b ∉ inner

/-- A transfer drives `DI` and `CLK` and samples `DO` (R125). -/
@[simp] theorem cs_notMem_transferEvents (l c : Level) (b q : Byte) : .cs l ∉ transferEvents c b q := by
  simp [transferEvents]

theorem registerEvents_selectedThroughout (c : Level) (a d qa qd : Byte) :
    SelectedThroughout (registerEvents c a d qa qd) :=
  ⟨[.wait 2] ++ transferEvents c a qa ++ [.pad] ++ transferEvents c d qd, rfl, by simp⟩

/-- In every build: neither the settle wait nor the pad touches chip-select. -/
theorem burstEvents_selectedThroughout (p : Params) (c : Level) (q0 : Byte) (q : List Byte) :
    SelectedThroughout (burstEvents p c q0 q) := by
  refine ⟨(if p.burstSettleUs = 0 then [] else [.wait p.burstSettleUs]) ++ transferEvents c 0x80#8 q0
    ++ (if p.burstPad then [.pad] else []) ++ q.flatMap (transferEvents c 0x00#8), by simp [burstEvents], fun l => ?_⟩
  have hsettle : .cs l ∉ if p.burstSettleUs = 0 then [] else [LineEvent.wait p.burstSettleUs] := by split <;> simp
  have hpad : .cs l ∉ if p.burstPad then [LineEvent.pad] else [] := by split <;> simp
  simp [hsettle, hpad]

theorem events_readBuffer {s : State} (hreal : s.params.backend = .real) : s.events .readBuffer =
    burstEvents s.params s.clk (s.received 0) ((List.range 12).map fun j => s.received (j + 1)) := by
  simp [State.events, hreal, State.accepts]

/-- Settles O11: the trace grows by the events of one register transaction or one burst. -/
theorem framingOfTransactions : Obligations.FramingOfTransactions := by
  intro i a v s t hreal hi h
  have hevents : SelectedThroughout (s.events i) := by
    rcases hi with rfl | rfl | rfl
    · rw [events_readRegister hreal]
      exact registerEvents_selectedThroughout _ _ _ _ _
    · rw [events_writeRegister hreal]
      exact registerEvents_selectedThroughout _ _ _ _ _
    · rw [events_readBuffer hreal]
      exact burstEvents_selectedThroughout _ _ _ _
  obtain ⟨inner, heq, hcs⟩ := hevents
  exact ⟨inner, by rw [exec_trace h, heq, List.append_assoc], hcs⟩

end Sys2Proof.Machine
end

section
/-! PROOF. READ_BUFFER run whole: the next state (O10), and what a burst is under the reference responder: the twelve
bytes are its registers 0 to 11 (O43). -/

namespace Sys2Proof.Machine

/-! ### Burst Capture (R161, R162, R164) -/

theorem exec_readBuffer_real {s : State} (hreal : s.params.backend = .real) :
    exec .readBuffer s = .next (readBuffer s) := by
  simp only [exec, execReadBuffer, hreal]

/-- Settles O10: the closed form is `readBuffer_eq`, whose bytes are those behind the opcode's. -/
theorem burstNextState : Obligations.BurstNextState := by
  intro s hreal
  have hbuf : s.capture 1 = Vector.ofFn fun j => s.received (j.val + 1) := by
    simp only [State.capture, Nat.add_comm 1]
  have hlog : (s.capture 1).toList = (List.range 12).map fun j => s.received (j + 1) := by
    simp only [capture_toList, Nat.add_comm 1]
  rw [exec_readBuffer_real hreal, readBuffer_eq, hlog, hbuf]

/-! ### The responder over a burst (D18) -/

/-- The responder is between two bytes of a read frame whose address byte is complete: it puts out the register its
pointer names. -/
structure Responder.Reading (r : Responder) : Prop where
  half : r.half = false
  slot : r.slot = 0
  n : r.n ≠ 0
  rw : r.rw = true
  out : r.out = r.reg.read r.ptr.toNat

/-- An address byte with bit 7 set opens a read. -/
theorem reading_of_address (r : Responder) {a : Byte} (ha : a.msb = true) : (r.opened.sent a).Reading := by
  obtain ⟨hhalf, hslot⟩ := sent_aligned (r := r.opened) rfl rfl a
  refine ⟨hhalf, hslot, ?_, ?_, ?_⟩ <;> rw [sent_address (r := r.opened) rfl]
  · exact Nat.one_ne_zero
  · exact ha
  · exact if_pos ha

/-- A later byte moves the pointer on by one, and neither ends the read nor changes a register. -/
theorem Responder.Reading.sent {r : Responder} (h : r.Reading) (b : Byte) :
    (r.sent b).Reading ∧ (r.sent b).ptr = r.ptr + 1 ∧ (r.sent b).reg = r.reg := by
  obtain ⟨hhalf, hslot⟩ := sent_aligned h.half h.slot b
  have hsent := sent_reading h.n h.rw b
  refine ⟨⟨hhalf, hslot, ?_, ?_, ?_⟩, ?_, ?_⟩ <;> rw [hsent]
  · exact Nat.succ_ne_zero r.n
  · exact h.rw

/-- Transfers inside a read receive the registers from the pointer on, one after the other. -/
theorem follows_reads {r r' : Responder} {c : Level} {b : Byte} {q : List Byte} (hr : r.Reading)
    (h : r.follows (q.flatMap (transferEvents c b)) = some r') :
    (∀ j (hj : j < q.length), q[j] = r.reg.read (r.ptr + BitVec.ofNat 7 j).toNat) ∧ r'.reg = r.reg := by
  induction q generalizing r with
  | nil =>
    cases h
    exact ⟨nofun, rfl⟩
  | cons x q ih =>
    rw [List.flatMap_cons, follows_append, Option.bind_eq_some_iff] at h
    obtain ⟨r₁, hfirst, hrest⟩ := h
    obtain ⟨hx, rfl⟩ := follows_transfer_some hr.half hr.slot hfirst
    obtain ⟨hr₁, hptr, hreg⟩ := hr.sent b
    obtain ⟨hq, hend⟩ := ih hr₁ hrest
    refine ⟨fun j hj => ?_, hend.trans hreg⟩
    cases j with
    | zero => rw [List.getElem_cons_zero, hx, hr.out, BitVec.add_zero]
    | succ j =>
      rw [List.getElem_cons_succ, hq j (Nat.lt_of_succ_lt_succ hj), hptr, hreg, BitVec.ofNat_add,
        BitVec.add_comm (BitVec.ofNat 7 j), ← BitVec.add_assoc]
      rfl

/-- A settle wait or a pad, where the build has one, is nothing to the responder. -/
theorem follows_ite_wait (r : Responder) (p : Prop) [Decidable p] (n : Nat) :
    r.follows (if p then [] else [.wait n]) = some r := by
  split <;> rfl

theorem follows_ite_pad (r : Responder) (p : Prop) [Decidable p] :
    r.follows (if p then [.pad] else []) = some r := by
  split <;> rfl

/-- A burst the responder answers, in every build: the opcode is the address byte of a read from register 0. -/
theorem follows_burst {r r' : Responder} {p : Params} {c : Level} {q0 : Byte} {q : List Byte}
    (h : r.follows (burstEvents p c q0 q) = some r') :
    (∀ j (hj : j < q.length), q[j] = r.reg.read (BitVec.ofNat 7 j).toNat) ∧ r'.reg = r.reg := by
  simp only [burstEvents, follows_append, follows_ite_wait, follows_ite_pad, Option.bind_eq_some_iff] at h
  obtain ⟨r₅, ⟨r₄, ⟨r₃, ⟨r₂, ⟨r₁, hopen, hsettle⟩, hopcode⟩, hpad⟩, hdata⟩, hclose⟩ := h
  cases hopen
  cases hsettle
  obtain ⟨-, rfl⟩ := follows_transfer_some (r := r.opened) rfl rfl hopcode
  cases hpad
  have hread : (r.opened.sent 0x80#8).Reading := reading_of_address r rfl
  obtain ⟨hq, hreg⟩ := follows_reads hread hdata
  rw [sent_address (r := r.opened) rfl] at hq hreg
  cases hclose
  exact ⟨fun j hj => (hq j hj).trans (by simp [Responder.opened]), hreg⟩

/-- Settles O43: the events are those of one burst, and `BUF[j]` is its byte j by the next state of O10. -/
theorem responderBurst : Obligations.ResponderBurst := by
  intro s t ev r r' hreal h htrace hfollows
  rw [events_of_trace h htrace, events_readBuffer hreal] at hfollows
  obtain ⟨hq, hreg⟩ := follows_burst hfollows
  rw [burstNextState s hreal] at h
  cases h
  refine ⟨fun j => ?_, hreg⟩
  have hbyte := hq j.val (by simp)
  have hj : (BitVec.ofNat 7 j.val).toNat = j.val := by
    rw [BitVec.toNat_ofNat, Nat.mod_eq_of_lt (by omega)]
  simpa [hj] using hbyte

end Sys2Proof.Machine
end

section
/-! PROOF. A refused command changes nothing (O23), and an error refuses every command until a reset (O26). -/

namespace Sys2Proof.Machine

/-! ### Acceptance (R170) -/

/-- Whatever the command, only an idle block without an error accepts it. -/
theorem idle_of_accepts {i : Instr} {s : State} (hi : i.isCommand = true) (ha : s.accepts i = true) :
    s.seq = .idle ∧ s.fault = none := by
  cases i with
  | new id =>
    obtain ⟨hs, hfault, -⟩ := (acceptsNew_iff s id).1 ha
    exact ⟨hs, hfault⟩
  | update | getData | getFrequency | destroy =>
    obtain ⟨hs, hfault, -⟩ := (acceptsOnReady_iff s).1 ha
    exact ⟨hs, hfault⟩
  | transfer | readRegister | writeRegister | readBuffer => exact absurd hi Bool.false_ne_true

/-- A block with an error accepts no command. -/
theorem not_accepts_of_fault {i : Instr} {s : State} (hi : i.isCommand = true) (hf : s.fault ≠ none) :
    ¬ s.accepts i = true :=
  fun ha => hf (idle_of_accepts hi ha).2

/-- Settles O23: in each clause the command is not accepted, and such a command changes nothing. -/
theorem refusedCommandChangesNothing : Obligations.RefusedCommandChangesNothing := by
  refine ⟨fun i s hi hbusy => exec_of_not_accepts hi fun ha => ?_,
    fun id s hready => exec_of_not_accepts rfl fun ha => ?_, fun i s hi hdev => ?_,
    fun id s hreal hlive => exec_of_not_accepts rfl fun ha => ?_⟩
  · obtain ⟨hs, hfault⟩ := idle_of_accepts hi ha
    exact hbusy.elim (absurd hs) (absurd hfault)
  · obtain ⟨-, -, hdev, -⟩ := (acceptsNew_iff s id).1 ha
    exact absurd (hready.symm.trans hdev) nofun
  · have hunready : ¬ s.acceptsOnReady = true := fun ha => by
      obtain ⟨-, -, hready⟩ := (acceptsOnReady_iff s).1 ha
      exact absurd (hready.symm.trans hdev) nofun
    rcases hi with rfl | rfl | rfl | rfl <;> exact exec_of_not_accepts rfl hunready
  · obtain ⟨-, -, -, hfree⟩ := (acceptsNew_iff s id).1 ha
    exact hfree.elim (absurd hlive) (absurd hreal)

/-! ### An error stays until a reset (R208) -/

/-- Settles O26: only a reset clears an error (O29), and with one set no command is accepted; a reserved code is refused
in any case (O33). -/
theorem faultIsSticky : Obligations.FaultIsSticky := by
  refine ⟨fun s t => reset_of_fault_cleared, fun s bytes rest i hf hs hp hd => ?_, fun s code id rest hf hs hp => ?_⟩
  · rw [step_of_op hs hp hd]
    exact exec_of_not_accepts (isCommand_of_decode hd) (not_accepts_of_fault (isCommand_of_decode hd) hf)
  · cases hd : decode .H [code.setWidth 8, id] with
    | error e => exact step_of_badCommand hs hp hd
    | ok i =>
      rw [step_of_command hs hp hd]
      exact congrArg _ (if_neg (not_accepts_of_fault (isCommand_of_decode hd) hf))

end Sys2Proof.Machine
end

section
/-! PROOF. NEW run whole: the next state of each outcome (O12, O13, O14), a present chip under the reference responder
(O44), and that the self-check is the only way into Ready (O25). -/

namespace Sys2Proof.Machine

/-! ### NEW, outcome by outcome (R171, R186) -/

section New

variable {s : State} {id : Byte}

theorem accepts_new (hs : s.seq = .idle) (hfault : s.fault = none) (hdev : s.dev = .uninitialized)
    (hfree : id ∉ s.liveIds ∨ s.params.backend ≠ .real) : s.accepts (.new id) = true :=
  (acceptsNew_iff s id).2 ⟨hs, hfault, hdev, hfree⟩

theorem exec_new_real (hreal : s.params.backend = .real) (ha : s.accepts (.new id) = true) :
    exec (.new id) s = .next (construct id s) := by
  simp only [exec, execNew, if_pos ha, hreal]

theorem exec_new_stub (hstub : s.params.backend = .stub) (ha : s.accepts (.new id) = true) :
    exec (.new id) s = .next (setDev .ready s) := by
  simp only [exec, execNew, if_pos ha, hstub]

/-- The self-check passes (R174, R175). -/
theorem selfCheck_sentinel (h : s.buf[0] = Config.sentinel) : selfCheck s = setDev .ready s := if_pos h

/-- The self-check fails (R202, R204). -/
theorem selfCheck_of_ne (h : s.buf[0] ≠ Config.sentinel) : selfCheck s = raise .presenceError s.buf[0] s := if_neg h

/-- The self-check makes a block Ready that was not only when it passes. -/
theorem buf_of_selfCheck_ready (hdev : s.dev ≠ .ready) (h : (selfCheck s).dev = .ready) :
    s.buf[0] = Config.sentinel := by
  by_contra hne
  rw [selfCheck_of_ne hne] at h
  exact hdev h

end New

theorem capture_zero (s : State) (m : Nat) : (s.capture m)[0] = s.received m := Vector.getElem_ofFn _

/-- Settles O12: what NEW does up to its self-check, in closed form, and the self-check passed. -/
theorem newBecomesReady : Obligations.NewBecomesReady := by
  intro id s hreal hs hfault hdev hfree hvalid hbyte
  rw [exec_new_real hreal (accepts_new hs hfault hdev (.inl hfree)), construct_eq id s hvalid,
    selfCheck_sentinel ((capture_zero s 23).trans hbyte)]
  rfl

/-- Settles O13: the same up to the self-check, which raises the error; the block was idle and is. -/
theorem newTakesPresenceError : Obligations.NewTakesPresenceError := by
  intro id s hreal hs hfault hdev hfree hvalid hbyte
  have hfirst := capture_zero s 23
  rw [exec_new_real hreal (accepts_new hs hfault hdev (.inl hfree)), construct_eq id s hvalid,
    selfCheck_of_ne (fun h => hbyte (hfirst.symm.trans h)), raise, hfirst, ← hs]
  rfl

/-- Settles O14: the id check comes first, and the stand-in has none. -/
theorem newTakesConfigError : Obligations.NewTakesConfigError := by
  intro id s hs hfault hdev hfree hinvalid
  have ha := accepts_new hs hfault hdev (.inl hfree)
  refine ⟨fun hreal => ?_, fun hstub => ⟨_, exec_new_stub hstub ha, hfault⟩⟩
  rw [exec_new_real hreal ha, construct_badId id s hinvalid, raise, ← hs]

/-! ### A present chip (D18, R174) -/

/-- Register writes that the responder answers leave a register alone that none of them addresses. -/
theorem follows_writes {l : List (Byte × Byte)} {r r' : Responder} {c : Level} {q : Nat → Byte} {k : Nat}
    (hwf : r.reg.wf = true) (hk : ∀ e ∈ l, (e.1 &&& 0x7F#8).toNat ≠ k)
    (h : r.follows (writesEvents l c q) = some r') : r'.reg.read k = r.reg.read k := by
  induction l generalizing r q with
  | nil =>
    cases h
    rfl
  | cons e l ih =>
    obtain ⟨hke, hkl⟩ := List.forall_mem_cons.1 hk
    rw [writesEvents_cons, follows_append, Option.bind_eq_some_iff] at h
    obtain ⟨r₁, hfirst, hrest⟩ := h
    obtain ⟨-, hreg⟩ := follows_registerWrite (writeAddressByte_msb e.1) hfirst
    rw [writeAddressByte_ptr] at hreg
    rw [ih (responderMemoryStaysCanonical r r₁ _ hwf hfirst) hkl hrest, hreg, Memory.read_write _ hwf,
      if_neg hke.symm]

theorem events_new {s : State} {id : Byte} (hreal : s.params.backend = .real) (ha : s.accepts (.new id) = true)
    (hvalid : id ∈ s.params.validIds) : s.events (.new id) = newEvents s.params id s.received := by
  simp [State.events, hreal, ha, hvalid]

/-- The burst of a NEW that the responder answers begins with its register 0, if no initialisation write addresses it;
the binding is nothing to the responder. -/
theorem follows_new {r r' : Responder} {p : Params} {id : Byte} {q : Nat → Byte} (hwf : r.reg.wf = true)
    (hinit : ∀ e ∈ p.initSeq.toList, e.1 &&& 0x7F#8 ≠ 0x00#8) (h : r.follows (newEvents p id q) = some r') :
    q 23 = r.reg.read 0 := by
  change r.follows (initEvents p p.clkInit q ++ _) = some r' at h
  rw [follows_append, Option.bind_eq_some_iff] at h
  obtain ⟨r₁, hwrites, hburst⟩ := h
  obtain ⟨hbytes, -⟩ := follows_burst hburst
  rw [← follows_writes (k := 0) hwf (fun e he h0 => hinit e he (BitVec.eq_of_toNat_eq h0)) hwrites]
  simpa using hbytes 0 (by simp)

/-- Settles O44: byte 23 is the responder's register 0, and O12 gives the state NEW ends in. -/
theorem presentChipPassesSelfCheck : Obligations.PresentChipPassesSelfCheck := by
  intro id s t ev r r' hreal hs hfault hdev hfree hvalid hinit hwf hpresent h htrace hfollows
  rw [events_of_trace h htrace, events_new hreal (accepts_new hs hfault hdev (.inl hfree)) hvalid] at hfollows
  have hbyte : s.received 23 = 0x80#8 := (follows_new hwf hinit hfollows).trans hpresent
  rw [newBecomesReady id s hreal hs hfault hdev hfree hvalid hbyte] at h
  cases h
  exact ⟨rfl, hfault⟩

/-! ### The only way into Ready (R174, R175) -/

/-- A NEW that makes a block Ready that was not has a valid id and has passed its self-check. -/
theorem new_ready {id : Byte} {s t : State} (hreal : s.params.backend = .real) (h : exec (.new id) s = .next t)
    (hdev : s.dev ≠ .ready) (hready : t.dev = .ready) :
    id ∈ s.params.validIds ∧ t.buf[0] = 0x80#8 ∧ t.bound = true ∧ t.fault = none := by
  cases exec_performs h with
  | refused | newBadId => exact absurd hready hdev
  | stubNew hstub => exact absurd (hreal.symm.trans hstub) nofun
  | newBound _ ha hvalid =>
    obtain ⟨-, hfault, -⟩ := (acceptsNew_iff s id).1 ha
    have hu := constructed_eq id s
    generalize readBuffer (initWrites (bindLines id (setId id s))) = u at hu hready ⊢
    have hbuf : u.buf[0] = Config.sentinel := buf_of_selfCheck_ready (by rw [hu]; exact hdev) hready
    rw [selfCheck_sentinel hbuf]
    exact ⟨hvalid, hbuf, by rw [hu]; rfl, by rw [hu]; exact hfault⟩

/-- Of the operations run whole only NEW makes a block Ready. -/
theorem new_of_exec_ready {i : Instr} {s t : State} (h : exec i s = .next t) (hdev : s.dev ≠ .ready)
    (hready : t.dev = .ready) : ∃ id, i = .new id := by
  obtain ⟨-, -, -, -, -, hchanged, -⟩ := registersChangedOnlyByTheirWriters i s t h
  rcases hchanged (.inl fun he => hdev (he.symm.trans hready)) with rfl | hnew
  · cases exec_performs h with
    | refused => exact absurd hready hdev
    | destroy | stubDestroy => cases hready
  · exact hnew

/-- Of the positions of a command with the real backend only the self-check makes a block Ready. -/
theorem seqStep_dev_ne_ready {s : State} (hreal : s.params.backend = .real) (hdev : s.dev ≠ .ready)
    (hcheck : s.seq ≠ .newSelfCheck) : (seqStep s).dev ≠ .ready := by
  cases hs : s.seq with
  | idle => rwa [seqStep_idle hs]
  | newCheckId id =>
    by_cases hvalid : id ∈ s.params.validIds
    · rwa [seqStep_newCheckId_valid hs hreal hvalid]
    · rwa [seqStep_newCheckId_invalid hs hreal hvalid]
  | newBind => rwa [seqStep_newBind hs]
  | newWrite n p => rwa [seqStep_newWrite hs, goto_dev, (regStep_dataPath _ _ p s).dev]
  | newBurst p => rwa [seqStep_newBurst hs, goto_dev, (bufStep_dataPath p s).dev]
  | newSelfCheck => exact absurd hs hcheck
  | updateRead r p => rwa [seqStep_updateRead hs, goto_dev, (regStep_dataPath _ _ p s).dev]
  | updateStore r => rwa [seqStep_updateStore hs]
  | updateCommit => rwa [seqStep_updateCommit hs]
  | get w => rwa [seqStep_get hs]
  | destroy stage =>
    cases stage with
    | release => rwa [seqStep_destroyRelease hs]
    | dev => rw [seqStep_destroyDev_real hs hreal]; nofun
    | prox => rwa [seqStep_destroyProx hs]
    | freq => rwa [seqStep_destroyFreq hs]

/-- A step of the sequencer that makes a block Ready is a self-check passed, and does nothing else. -/
theorem seqStep_ready {s : State} (hreal : s.params.backend = .real) (hdev : s.dev ≠ .ready)
    (hready : (seqStep s).dev = .ready) :
    s.seq = .newSelfCheck ∧ s.buf[0] = 0x80#8 ∧ seqStep s = { s with dev := .ready, seq := .idle } := by
  have hs : s.seq = .newSelfCheck := by
    by_contra hne
    exact seqStep_dev_ne_ready hreal hdev hne hready
  rw [seqStep_newSelfCheck hs] at hready ⊢
  have hbuf := buf_of_selfCheck_ready hdev hready
  rw [selfCheck_sentinel hbuf]
  exact ⟨hs, hbuf, rfl⟩

theorem issueCommand_dev (code : BitVec 3) (id : Byte) (s : State) : (issueCommand code id s).dev = s.dev := by
  rcases issueCommand_cases code id s with h | ⟨i, -, -, h⟩ <;> rw [h]
  rfl

/-- Settles O25: run whole, by what NEW may do; for a step, by the kinds of step there are. -/
theorem readyOnlyThroughSelfCheck : Obligations.ReadyOnlyThroughSelfCheck := by
  constructor
  · intro i s t hreal h hdev hready
    obtain ⟨id, rfl⟩ := new_of_exec_ready h hdev hready
    exact ⟨id, rfl, new_ready hreal h hdev hready⟩
  · intro s t hreal h hdev hready
    rcases step_next_cases h with ⟨rest, -, rfl⟩ | ⟨code, id, rest, -, -, rfl⟩ | ⟨f, bytes, rest, hp, hs, hx⟩ |
      ⟨-, -, rfl⟩ | ⟨-, rfl⟩
    · cases hready
    · rw [issueCommand_dev] at hready
      exact absurd hready hdev
    · rcases hx with ⟨i, hd, hx⟩ | rfl
      · obtain ⟨id, rfl⟩ := new_of_exec_ready hx hdev hready
        obtain ⟨hvalid, hbuf, hbound, hfault⟩ := new_ready (s := { s with pending := rest }) hreal hx hdev hready
        exact .inr ⟨hs, hbuf, hbound, hfault, f, bytes, rest, id, hp, hd, hvalid⟩
      · exact absurd hready hdev
    · exact absurd hready hdev
    · exact .inl (seqStep_ready hreal hdev hready)

end Sys2Proof.Machine
end

section
/-! PROOF. The getters (O17, O18), DESTROY (O19), and the stand-in (O20, O21, O22). -/

namespace Sys2Proof.Machine

/-! ### The getters (R180, R181, R182) -/

/-- What a getter returns in the state `s`. -/
def State.getterResult (s : State) (i : Instr) : Result :=
  if i = .getData then .data s.dataResult else .frequency s.frequencyResult

section OnReady

variable {s : State}

theorem exec_getData (ha : s.acceptsOnReady = true) :
    exec .getData s = .next { s with returned := .data s.dataResult :: s.returned } := congrArg _ (if_pos ha)

theorem exec_getFrequency (ha : s.acceptsOnReady = true) :
    exec .getFrequency s = .next { s with returned := .frequency s.frequencyResult :: s.returned } :=
  congrArg _ (if_pos ha)

/-- A getter on a constructed block of either backend hands back its value and changes nothing. -/
theorem exec_getter {i : Instr} (ha : s.acceptsOnReady = true) (hi : i = .getData ∨ i = .getFrequency) :
    exec i s = .next (s.give (s.getterResult i)) := by
  rcases hi with rfl | rfl
  · exact exec_getData ha
  · exact exec_getFrequency ha

/-- The values do not depend on what was returned before, so a list of getters returns them in its own order. -/
theorem execAll_getters {l : List Instr} (ha : s.acceptsOnReady = true)
    (hl : ∀ i ∈ l, i = .getData ∨ i = .getFrequency) :
    execAll l s = .next { s with returned := (l.map s.getterResult).reverse ++ s.returned } := by
  induction l generalizing s with
  | nil => rfl
  | cons i l ih =>
    obtain ⟨hi, hl⟩ := List.forall_mem_cons.1 hl
    rw [execAll, exec_getter ha hi]
    refine (ih (s := s.give (s.getterResult i)) ha hl).trans ?_
    rw [List.map_cons, List.reverse_cons, List.append_assoc]
    rfl

theorem dataResult_real (hreal : s.params.backend = .real) : s.dataResult = s.prox := by
  simp only [State.dataResult, hreal]

theorem dataResult_stub (hstub : s.params.backend = .stub) : s.dataResult = 0x0000#16 := by
  simp only [State.dataResult, hstub]

theorem frequencyResult_real (hreal : s.params.backend = .real) : s.frequencyResult = s.freq := by
  simp only [State.frequencyResult, hreal]

theorem frequencyResult_stub (hstub : s.params.backend = .stub) : s.frequencyResult = 0x00000000#32 := by
  simp only [State.frequencyResult, hstub]

/-- DESTROY on a constructed block (R183, R186). -/
theorem exec_destroy (ha : s.acceptsOnReady = true) : exec .destroy s = .next (teardown s) := congrArg _ (if_pos ha)

theorem teardown_real (hreal : s.params.backend = .real) : teardown s = { s with
    bound := false, dev := .uninitialized, prox := 0x0000#16, freq := 0x00000000#32, log := .release :: s.log } := by
  simp only [teardown, hreal]
  rfl

theorem teardown_stub (hstub : s.params.backend = .stub) : teardown s = { s with dev := .uninitialized } := by
  simp only [teardown, hstub]
  rfl

/-- With either backend the body of DESTROY leaves the position and the error, and `DEV` Uninitialized. -/
theorem teardown_status : (teardown s).seq = s.seq ∧ (teardown s).fault = s.fault ∧
    (teardown s).dev = .uninitialized := by
  unfold teardown
  split <;> exact ⟨rfl, rfl, rfl⟩

/-- UPDATE of the stand-in (R186). -/
theorem exec_update_stub (hstub : s.params.backend = .stub) (ha : s.acceptsOnReady = true) :
    exec .update s = .next s := by
  simp only [exec, execUpdate, State.accepts, if_pos ha, hstub]

end OnReady

/-- Settles O17: the values of the real backend are the readings. -/
theorem gettersReturnCachedReadings : Obligations.GettersReturnCachedReadings := by
  intro s hreal hs hfault hdev
  have ha := (acceptsOnReady_iff s).2 ⟨hs, hfault, hdev⟩
  rw [exec_getData ha, exec_getFrequency ha, dataResult_real hreal, frequencyResult_real hreal]
  exact ⟨rfl, rfl⟩

/-- Settles O18: the two values are those of the start state. -/
theorem gettersAreIdempotent : Obligations.GettersAreIdempotent := by
  intro s hs hfault hdev
  have ha := (acceptsOnReady_iff s).2 ⟨hs, hfault, hdev⟩
  exact ⟨s.dataResult, s.frequencyResult, fun hreal => ⟨dataResult_real hreal, frequencyResult_real hreal⟩,
    fun hstub => ⟨dataResult_stub hstub, frequencyResult_stub hstub⟩, fun l hl => execAll_getters ha hl⟩

/-! ### DESTROY (R183) -/

/-- Settles O19: the body of DESTROY leaves an idle, unconstructed block without an error, which accepts a NEW. -/
theorem destroyNextState : Obligations.DestroyNextState := by
  intro s hs hfault hdev
  rw [exec_destroy ((acceptsOnReady_iff s).2 ⟨hs, hfault, hdev⟩)]
  refine ⟨fun hreal => by rw [teardown_real hreal], fun hstub => by rw [teardown_stub hstub], fun t ht id hfree => ?_⟩
  cases ht
  obtain ⟨hseq, hkept, hgone⟩ := teardown_status (s := s)
  exact accepts_new (hseq.trans hs) (hkept.trans hfault) hgone (.inl hfree)

/-! ### The stand-in (R186) -/

/-- Settles O20: each command by its equation under the stand-in. -/
theorem stubCommands : Obligations.StubCommands := by
  intro s hstub hs hfault
  constructor
  · intro hdev id
    exact exec_new_stub hstub (accepts_new hs hfault hdev (.inr (by simp [hstub])))
  · intro hdev
    have ha := (acceptsOnReady_iff s).2 ⟨hs, hfault, hdev⟩
    rw [exec_getData ha, exec_getFrequency ha, exec_destroy ha, dataResult_stub hstub, frequencyResult_stub hstub,
      teardown_stub hstub]
    exact ⟨exec_update_stub hstub ha, rfl, rfl, rfl⟩

/-- Settles O21: the stand-in's arm of each internal operation. -/
theorem stubInternalOperations : Obligations.StubInternalOperations := by
  intro a v s hstub
  refine ⟨?_, ?_, ?_, ?_⟩
  · simp only [exec, execTransfer, hstub]
    rfl
  · simp only [exec, execReadRegister, hstub]
    rfl
  · simp only [exec, execWriteRegister, hstub]
    rfl
  · simp only [exec, execReadBuffer, hstub]

/-- Settles O22: what the stand-in performs is a write of `DEV`, a value returned or nothing, and it has no events. -/
theorem stubWritesOnlyDev : Obligations.StubWritesOnlyDev := by
  intro i s t hstub h
  refine ⟨?_, by rw [exec_trace h, events_of_stub hstub, List.append_nil]⟩
  cases exec_performs h with
  | transfer hreal | readRegister hreal | writeRegister hreal | readBuffer hreal | newBound hreal | newBadId hreal
  | update hreal | destroy hreal => exact absurd (hstub.symm.trans hreal) nofun
  | refused | getData | getFrequency | stubTransfer | stubReadRegister | stubWriteRegister | stubReadBuffer | stubNew
  | stubUpdate | stubDestroy => rfl

end Sys2Proof.Machine
end

section
/-! PROOF. How many line events, toggles, samples, settle waits and pads each operation adds to the trace (O27). -/

namespace Sys2Proof.Machine

/-- In the decided build the events of each operation have the counts of its row of R249. -/
theorem events_counts {s : State} (hsettle : s.params.burstSettleUs = 0) (hpad : s.params.burstPad = false)
    (i : Instr) : eventCounts (s.events i) = s.countsOf i := by
  by_cases hz : s.params.backend = .stub ∨ s.accepts i = false
  · simp only [State.events, State.countsOf, if_pos hz]
    rfl
  · simp only [State.events, State.countsOf, if_neg hz]
    cases i with
    | transfer b => exact transferEvents_counts _ _ _
    | readRegister a => exact registerEvents_counts _ _ _ _ _
    | writeRegister a v => exact registerEvents_counts _ _ _ _ _
    | readBuffer => exact burstEvents_counts _ _ _ _ hsettle hpad (by simp)
    | new id =>
      by_cases hv : id ∈ s.params.validIds
      · simp only [if_pos hv]
        exact newEvents_counts _ _ _ hsettle hpad
      · simp only [if_neg hv]
        rfl
    | update => exact updateEvents_counts _ _ _
    | getData | getFrequency | destroy => rfl

/-- Settles O27: the events that the operation adds, counted. -/
theorem eventCountsOfOperations : Obligations.EventCounts := by
  intro i s t hsettle hpad h
  exact ⟨s.events i, exec_trace h, events_counts hsettle hpad i⟩

end Sys2Proof.Machine
end
